-- ==== Sys2Proof/Word.lean ====
section
/-!
DEFINITION. The words of the TD-48: the numbers the manual keeps at a fixed width, and the indexes of its tables
(00_scope.md, "Conventions").
-/

namespace Sys2Proof

/-- One byte on an SPI link; also a stop id, 0..255 (R119). -/
abbrev Byte := BitVec 8

/-- A unit's sequence number, 16 bits modulo 65536 (R24). -/
abbrev SeqNo := BitVec 16

/-- A route's lap number, 16 bits modulo 65536 (R83). -/
abbrev Lap := BitVec 16

/-- A time in deciseconds, 32 bits modulo 2^32 (R75). -/
abbrev Time := BitVec 32

/-- A 24-bit location code, and the bases and masks compared with one (R3, R63). -/
abbrev Location := BitVec 24

/-- A 32-bit part number, and the masks compared with one (R3, R119). -/
abbrev PartNo := BitVec 32

/-- A slot number, 0..191 (R1). -/
abbrev SlotId := Fin 192

/-- A route number, 0..5 (R82). -/
abbrev RouteId := Fin 6

/-- A unit's variant, 0..31 (R24). -/
abbrev Variant := Fin 32

end Sys2Proof
end

