-- ==== Sys2Proof/Syntax.lean ====
section
/-!
DEFINITION. The commands of the TD-48: one constructor of `Instr` for each row of the table of operations and events, and
the named values and field groups their operands use. An operand that must be one of named values is an `Option`, where
`none` stands for any other value (log 15).
-/

namespace Sys2Proof

/-- The two assembly lines (R3). -/
inductive Line where
  | a | b
deriving DecidableEq, Repr

/-- The four SPI ports (00_scope.md, "How the part is reached"). -/
inductive Port where
  | lp | tp | sp | ep
deriving DecidableEq, Repr

/-- The level of an input pin. -/
inductive Level where
  | low | high
deriving DecidableEq, Repr

/-- A slot's kind (R2). -/
inductive SlotKind where
  | kanban | sequenced
deriving DecidableEq, Repr

/-- A slot's status (R2). -/
inductive SlotStatus where
  | inactive | suspended | active
deriving DecidableEq, Repr

/-- The train capacity classes (R3). -/
inductive SizeClass where
  | s | m | l
deriving DecidableEq, Repr

/-- The discrepancy policies (R5). -/
inductive Policy where
  | report | resync | withhold
deriving DecidableEq, Repr

/-- A start level: FULL, or a number of parts (R4). -/
inductive StartLevel where
  | full
  | parts (n : Nat)
deriving DecidableEq, Repr

/-- The clock a route counts (R82). -/
inductive ClockSource where
  | line (l : Line)
  | plant
deriving DecidableEq, Repr

/-- A route's match mode (R119). -/
inductive MatchMode where
  | first | any
deriving DecidableEq, Repr

/-- A line's gate mode; OPEN is `opened` (R78, R79). -/
inductive GateMode where
  | follow | startOnce | stopOnce | opened | held
deriving DecidableEq, Repr

/-- A notice queue's mode (R169, R170). -/
inductive QueueMode where
  | halt | stream
deriving DecidableEq, Repr

/-- The two modes of APPLY (R157). -/
inductive ApplyMode where
  | immediate | atMark
deriving DecidableEq, Repr

/-- A rack sensor's state in a snapshot (R144). -/
inductive SensorState where
  | covered | uncovered
deriving DecidableEq, Repr

/-- The row a STAGE_USAGE names: a variant, or the word ALLOWANCE (R156). -/
inductive UsageRow where
  | variant (n : Nat)
  | allowance
deriving DecidableEq, Repr

/-- The operation a staging request carries: READ, or WRITE with its fields (R156). -/
inductive StageOp (α : Type) where
  | read
  | write (fields : α)
deriving DecidableEq, Repr

/-- Why a frame did not complete: CS_N rose in LENGTH or PAYLOAD, or the declared length was above 60 (R165). -/
inductive DiscardCause where
  | chipSelect
  | overlong (declared : Byte)
deriving DecidableEq, Repr

/-- A drop label (10.5). -/
structure DropLabel where
  part : PartNo
  qualifier : BitVec 16
deriving DecidableEq, Repr

/-- The fields of a STAGE_SLOT WRITE as sent (R3 to R6, R156). `start` is `none` where the request leaves the start level
out; `sensor` is `none` for the binding NONE. -/
structure SlotFields where
  kind : Option SlotKind
  status : Option SlotStatus
  line : Option Line
  location : Nat
  part : PartNo
  group : Nat
  allowance : Nat
  size : Option SizeClass
  cq : Nat
  mc : Nat
  rop : Nat
  start : Option StartLevel
  sensor : Option Nat
  eye : Nat
  band : Nat
  policy : Option Policy
  rackSize : Nat
  minLead : Nat
deriving DecidableEq, Repr

/-- The fields of a STAGE_ROUTE WRITE as sent (R82, R101, R119). -/
structure RouteFields where
  enabled : Bool
  source : Option ClockSource
  period : Nat
  buildAt : BitVec 16
  departAt : BitVec 16
  capS : Nat
  capM : Nat
  capL : Nat
  stops : List Byte
  matchMode : Option MatchMode
  mask : PartNo
deriving DecidableEq, Repr

/-- The fields of a STAGE_WINDOW WRITE or a SET_DIVERT as sent (R70, R71); `spread` is `none` for OFF. -/
structure WindowFields where
  enabled : Bool
  base : Nat
  mask : Nat
  route : Nat
  stopBase : Nat
  spread : Option Nat
deriving DecidableEq, Repr

/-- The fields of a STAGE_GLOBALS WRITE as sent (R43, R59). -/
structure GlobalFields where
  ageStep : Nat
  watermark : Nat
deriving DecidableEq, Repr

/-- The commands: one constructor for each row of spec/opcode_table.json. A request carries the port it arrives on; a
number whose range its owner tests is a plain `Nat`. -/
inductive Instr where
  | powerOn
  | resetN (level : Level)
  | runEdge (line : Line) (level : Level)
  | decisecondEnd
  | wrap (route : RouteId)
  | buildPoint (route : RouteId)
  | departurePoint (route : RouteId)
  | skippedPoint (route : RouteId)
  | frameDiscard (port : Port) (cause : DiscardCause)
  | unknown (port : Port) (code : Byte) (payload : List Byte)
  | readStatus (port : Port)
  | readNotices (port : Port) (n : Nat)
  | setNoticeMode (port : Port) (mode : Option QueueMode) (n : Nat)
  | readSlot (port : Port) (slot : Nat)
  | readRoute (port : Port) (route : Nat)
  | readQueue (port : Port) (first : Nat)
  | readManifest (port : Port) (route : Nat) (lap : Lap) (first : Nat)
  | announce (port : Port) (line : Option Line) (seq : SeqNo) (variant : Nat) (mark : Bool)
  | advance (port : Port) (line : Option Line) (seq : SeqNo) (variant : Nat) (mark : Bool)
  | sensorSnapshot (port : Port) (bank : Nat) (states : Vector SensorState 32)
  | depart (port : Port) (route : Nat)
  | arrive (port : Port) (route : Nat) (stopId : Byte)
  | drop (port : Port) (route : Nat) (label : DropLabel)
  | lapEnd (port : Port) (route : Nat)
  | readStopLines (port : Port) (route : Nat)
  | beginPick (port : Port) (route : Nat) (lap : Lap)
  | shortPick (port : Port) (route : Nat) (lap : Lap) (line : Nat) (picked : Nat)
  | loadConfirm (port : Port) (route : Nat) (lap : Lap)
  | ackLate (port : Port) (route : Nat)
  | readPickList (port : Port) (route : Nat) (lap : Lap) (first : Nat)
  | stageSlot (port : Port) (slot : Nat) (op : StageOp SlotFields)
  | stageUsage (port : Port) (line : Option Line) (row : UsageRow) (first : Nat) (op : StageOp (List Nat))
  | stageRoute (port : Port) (route : Nat) (op : StageOp RouteFields)
  | stageWindow (port : Port) (index : Nat) (op : StageOp WindowFields)
  | stageGlobals (port : Port) (op : StageOp GlobalFields)
  | apply (port : Port) (mode : Option ApplyMode) (line : Option Line)
  | cancelApply (port : Port)
  | setDivert (port : Port) (index : Nat) (fields : WindowFields)
  | setGate (port : Port) (line : Option Line) (mode : Option GateMode)
  | setHold (port : Port) (route : Nat) (on : Bool)
  | presetLate (port : Port) (route : Nat)
  | topup (port : Port) (slot : Nat) (n : Byte)
  | cancelDemand (port : Port) (slot : Nat)
  | cancelManifest (port : Port) (route : Nat) (lap : Lap)
  | clearDiscrepancy (port : Port) (slot : Nat)
  | start (port : Port)
  | stop (port : Port)
  | runReset (port : Port)
  | readCounters (port : Port)
  | csNFall (port : Port)
  | byteReceived (port : Port) (byte : Byte)
  | transactionEnd (port : Port)
deriving DecidableEq, Repr

/-- The requests a port may send, each with one request code (R166). -/
inductive Request where
  | readStatus | readNotices | setNoticeMode | readSlot | readRoute | readQueue | readManifest
  | announce | advance | sensorSnapshot
  | depart | arrive | drop | lapEnd | readStopLines
  | beginPick | shortPick | loadConfirm | ackLate | readPickList
  | stageSlot | stageUsage | stageRoute | stageWindow | stageGlobals | apply | cancelApply | setDivert | setGate | setHold
  | presetLate | topup | cancelDemand | cancelManifest | clearDiscrepancy | start | stop | runReset | readCounters
deriving DecidableEq, Repr

end Sys2Proof
end

