-- ==== Sys2Proof/Decode.lean ====
section
/-!
DEFINITION. Reading a command from a word of the table's bits. No row of spec/opcode_table.json gives any bits, so no word
spells a command. A frame's bytes are read by the port units (Machine/Frames.lean).
-/

namespace Sys2Proof

/-- The command that a word spells by the table's bits: none, since no row gives any. -/
def decodeTableWord (_nbits _w : Nat) : Option Instr := none

end Sys2Proof
end

