-- ==== Sys2Proof/Machine/State.lean ====
section
/-!
DEFINITION. The state of the TD-48, block by block, as plain data, with every field's power-on value as its default, and the
reasons a step can stop. INVENTORY.md lists each field with the rule that names it.
-/

namespace Sys2Proof.Machine

open Sys2Proof

/-! ## Small containers -/

/-- One value for each assembly line. -/
structure PerLine (α : Type) where
  a : α
  b : α
deriving DecidableEq, Repr

/-- One value for each port. -/
structure PerPort (α : Type) where
  lp : α
  tp : α
  sp : α
  ep : α
deriving DecidableEq, Repr

/-- One number for each size class: capacities (R101), carried loads (R98). -/
structure PerSize where
  s : Nat := 0
  m : Nat := 0
  l : Nat := 0
deriving DecidableEq, Repr

/-- Which of a route's two buffers: number 2r or 2r + 1 (R97). -/
inductive Half where
  | lower | upper
deriving DecidableEq, Repr

/-- A route's two buffers (R97). -/
structure Pair (α : Type) where
  lower : α
  upper : α
deriving DecidableEq, Repr

/-! ## Slots (chapters 1, 2 and 8) -/

/-- A slot's configuration fields (R2 to R6), with the values of R22. -/
structure SlotConfig where
  kind : SlotKind := .kanban
  status : SlotStatus := .inactive
  line : Line := .a
  location : Location := 0
  part : PartNo := 0
  group : Fin 16 := 0
  allowance : Nat := 0
  size : SizeClass := .s
  cq : Nat := 1
  mc : Nat := 1
  rop : Nat := 0
  start : StartLevel := .parts 0
  sensor : Option (Fin 64) := none
  eye : Nat := 0
  band : Nat := 0
  policy : Policy := .report
  rackSize : Nat := 1
  minLead : Nat := 0
deriving DecidableEq, Repr

/-- A disagreement or discrepancy kind (R143); NONE is the absence of one. -/
inductive DiscKind where
  | under | over
deriving DecidableEq, Repr

/-- A sequenced slot's two marks when they are numbers (R28). -/
structure Marks where
  covered : SeqNo
  delivered : SeqNo
deriving DecidableEq, Repr

/-- A slot record: configuration, live fields (R7 to R9), checker state (R143), and marks, `none` for UNANCHORED (R28). -/
structure Slot where
  cfg : SlotConfig := {}
  oh : Nat := 0
  ordered : Nat := 0
  short : Bool := false
  blocked : Bool := false
  discrepant : Option DiscKind := none
  withheld : Bool := false
  shortfalls : Nat := 0
  overfills : Nat := 0
  resyncs : Nat := 0
  disKind : Option DiscKind := none
  disCount : Nat := 0
  marks : Option Marks := none
deriving DecidableEq, Repr

/-- One line's usage matrix, rows by variant and columns by usage group (R10), and its group allowances (R11). -/
structure LineUsage where
  q : Vector (Vector Nat 16) 32 := Vector.replicate 32 (Vector.replicate 16 0)
  allowance : Vector Nat 16 := Vector.replicate 16 0
deriving DecidableEq, Repr

/-! ## Sequences (chapter 2) -/

/-- A unit record of a sequence list (R24). -/
structure AnnouncedUnit where
  seq : SeqNo
  variant : Variant
  mark : Bool
deriving DecidableEq, Repr

/-- One line's sequence state. `last` is the last announced number; the line is anchored exactly when it has one (R26). -/
structure LineSequence where
  units : List AnnouncedUnit := []
  last : Option SeqNo := none
deriving DecidableEq, Repr

/-! ## Demand (chapter 3) -/

/-- A demand line's class (R42). -/
inductive DemandClass where
  | urgent | kanban | topup
deriving DecidableEq, Repr

/-- An OPEN demand line (R42). -/
structure DemandLine where
  slot : SlotId
  containers : Nat
  cls : DemandClass
  created : Time
  passes : Nat
  uncovered : Bool
deriving DecidableEq, Repr

/-- The demand queue, front first, with the live globals, the armed states and the two counters (R42, R43, R59 to R62). -/
structure DemandQueue where
  lines : List DemandLine := []
  ageStep : Nat := 2
  watermark : Nat := 96
  highArmed : Bool := true
  fullArmed : Bool := true
  returnsDropped : Nat := 0
  ordersRefused : Nat := 0
deriving DecidableEq, Repr

/-! ## Coverage (chapter 4) -/

/-- A coverage or divert window (R63), with the values of R74; `spread` is `none` for OFF. -/
structure Window where
  enabled : Bool := false
  base : Location := 0
  mask : Location := 0
  route : RouteId := 0
  stopBase : Nat := 0
  spread : Option Nat := none
deriving DecidableEq, Repr

/-! ## Clocks (chapter 5) -/

/-- One line's clock and gate (R76 to R79), with the values of R81 for a RUN input that stands low (log 2). -/
structure LineClock where
  time : Time := 0
  mode : GateMode := .follow
  isOpen : Bool := false
  fired : Bool := false
  run : Level := .low
deriving DecidableEq, Repr

/-! ## Routes (chapters 5, 6 and 7) -/

/-- A route's timing fields (R82), with the values of R96; A is `buildAt`, B is `departAt`. -/
structure RouteTiming where
  enabled : Bool := false
  source : ClockSource := .plant
  period : Nat := 600
  buildAt : Nat := 0
  departAt : Nat := 0
deriving DecidableEq, Repr

/-- Every staged field of a route (R155): timing, capacities (R101), stop list, match mode and part mask (R119). -/
structure RouteConfig where
  timing : RouteTiming := {}
  caps : PerSize := {}
  stops : List Byte := [0]
  matchMode : MatchMode := .first
  mask : PartNo := BitVec.allOnes 32
deriving DecidableEq, Repr

/-- What a manifest line carries, with its class: bins of a demand class, or one rack with its units (R99). -/
inductive LineLoad where
  | bin (cls : DemandClass)
  | rack (first : SeqNo) (last : SeqNo) (positions : Nat)
deriving DecidableEq, Repr

/-- Where a manifest line stands (R99, R121). -/
inductive LineState where
  | planned | delivered | returned
deriving DecidableEq, Repr

/-- A manifest line (R99). -/
structure ManifestLine where
  load : LineLoad
  slot : SlotId
  part : PartNo
  size : SizeClass
  stop : Nat
  planned : Nat
  held : Nat
  delivered : Nat
  state : LineState
deriving DecidableEq, Repr

/-- The state of a buffer: FREE, or the state of its live manifest (R97). -/
inductive BufferState where
  | free | offered | picking | loaded | onRoute
deriving DecidableEq, Repr

/-- A manifest buffer (R97, R98). Its route and number are its place in the pool. -/
structure Buffer where
  state : BufferState := .free
  lap : Lap := 0
  builtAt : Time := 0
  seen : Nat := 0
  overdue : Bool := false
  load : PerSize := {}
  lines : List ManifestLine := []
  stops : Option (List Byte) := none
deriving DecidableEq, Repr

/-- A route event that a decisecond or a wrap has produced (R83 to R86, R89). -/
inductive RouteEvent where
  | wrap | build | departure | skipped
deriving DecidableEq, Repr

/-- A route: its live configuration, the route timer's state (R82 to R96) and the lap tracker's (R97, R119). `next` is the
pending timing (R94). `due` is the model's own: the event the last count produced and that is not yet taken (log 7). -/
structure Route where
  cfg : RouteConfig := {}
  next : Option RouteTiming := none
  c : Nat := 0
  lap : Lap := 0
  late : Bool := false
  hold : Bool := false
  lateCount : Nat := 0
  overdueCount : Nat := 0
  heldCount : Nat := 0
  missedCount : Nat := 0
  skippedCount : Nat := 0
  due : Option RouteEvent := none
  pointer : Nat := 0
  current : Option Nat := none
  mismatches : Nat := 0
  buffers : Pair Buffer := ⟨{}, {}⟩
  older : Half := .lower
deriving DecidableEq, Repr

/-! ## Staging (chapter 9) -/

/-- The staging image (R155). -/
structure Image where
  slots : Vector SlotConfig 192 := Vector.replicate 192 {}
  usage : PerLine LineUsage := ⟨{}, {}⟩
  ageStep : Nat := 2
  watermark : Nat := 96
  routes : Vector RouteConfig 6 := Vector.replicate 6 {}
  windows : Vector Window 12 := Vector.replicate 12 {}
deriving DecidableEq, Repr

/-- The apply state (R155). -/
inductive ApplyState where
  | idle
  | armed (line : Line)
deriving DecidableEq, Repr

/-- The device mode (R176). -/
inductive DeviceMode where
  | cold | standby | active
deriving DecidableEq, Repr

/-! ## Notices (chapter 10) -/

/-- Why a unit was not supplied (R34). -/
inductive StarveReason where
  | unanchored | unannounced | notDelivered
deriving DecidableEq, Repr

/-- Why QUEUE_FULL was raised (R60). -/
inductive FullCause where
  | order | topup | return
deriving DecidableEq, Repr

/-- Why lines were returned (R123). -/
inductive ReturnCause where
  | shortPick | skipped | lapEnd | cancel
deriving DecidableEq, Repr

/-- The kinds of notice, each with its subject, lap or seq, and details (10.5). -/
inductive Event where
  | pickReady (route : RouteId) (lap : Lap) (lines : Nat)
  | lapMissed (route : RouteId) (lap : Lap) (older : BufferState)
  | late (route : RouteId) (lap : Lap) (state : BufferState)
  | overdue (route : RouteId) (lap : Lap) (pointer : Nat)
  | shortfall (slot : SlotId) (seq : SeqNo) (shortfalls : Nat)
  | seqStarved (slot : SlotId) (seq : SeqNo) (reason : StarveReason)
  | seqBreak (line : Line) (seq : SeqNo) (pulled : Nat) (orphans : Nat)
  | uncovered (slot : SlotId) (containers : Nat)
  | queueFull (slot : SlotId) (cause : FullCause) (containers : Nat)
  | queueHigh (slot : SlotId) (count : Nat)
  | discrepancy (slot : SlotId) (kind : DiscKind) (policy : Policy)
  | linesReturned (route : RouteId) (lap : Lap) (cause : ReturnCause) (lines : Nat)
  | planApplied (line : Option Line) (seq : SeqNo) (mode : ApplyMode) (changed : Nat)
  | modeChanged (new : DeviceMode) (previous : DeviceMode)
deriving DecidableEq, Repr

/-- A notice: its kind with its fields, and its plant time (R168, 10.5). -/
structure Notice where
  event : Event
  time : Time
deriving DecidableEq, Repr

/-- A port's notice queue, oldest first, with its marker, mode, threshold N, lost counter and ATTN_N output (R169 to R173),
with the values of R175. -/
structure NoticeQueue where
  items : List Notice := []
  marker : Bool := false
  mode : QueueMode := .halt
  threshold : Nat := 1
  lost : Nat := 0
  attn : Bool := false
deriving DecidableEq, Repr

/-! ## Responses (chapter 10 and the owning rules) -/

/-- The status codes (10.5). -/
inductive Status where
  | ok | mismatch | atMax | notPermitted | notActive | badArg | wrongState | notLoaded | trainBusy | wrongStop | behind
  | unknownStop | listFull | outOfOrder | stageLocked | stillPresent | notReady | notFound | unknown
deriving DecidableEq, Repr

/-- The three cases of an advance (R30). -/
inductive AdvanceCase where
  | head | pulled | unannounced
deriving DecidableEq, Repr

/-- Which limit answered AT_MAX (R48). -/
inductive TopupLimit where
  | slot | queue
deriving DecidableEq, Repr

/-- What READ_STATUS reports of one line (R40, R81). -/
structure LineReport where
  anchored : Bool
  last : Option SeqNo
  count : Nat
  head : Option SeqNo
  clock : LineClock
deriving DecidableEq, Repr

/-- What READ_STATUS reports (R174). -/
structure StatusReport where
  mode : DeviceMode
  applyState : ApplyState
  plant : Time
  lines : PerLine LineReport
  queueCount : Nat
  urgentCount : Nat
  queueMode : QueueMode
  threshold : Nat
  marker : Bool
  attn : Bool
  frameErrors : Nat
  lost : Nat
deriving DecidableEq, Repr

/-- What READ_SLOT reports (R21): the live record, with IP and the marks as that rule reports them. -/
structure SlotReport where
  slot : Slot
  ip : Nat
  marks : Option Marks
deriving DecidableEq, Repr

/-- What READ_ROUTE reports of one of the route's buffers (R117). -/
structure BufferReport where
  number : Nat
  state : BufferState
  lap : Option Lap
deriving DecidableEq, Repr

/-- What READ_ROUTE reports (R73, R95, R117, R139). -/
structure RouteReport where
  cfg : RouteConfig
  next : Option RouteTiming
  c : Nat
  lap : Lap
  late : Bool
  hold : Bool
  lateCount : Nat
  overdueCount : Nat
  heldCount : Nat
  missedCount : Nat
  skippedCount : Nat
  diverts : List (Nat × Window)
  windows : List (Nat × Window)
  buffers : Pair BufferReport
  older : Option Nat
  pointer : Nat
  current : Option Nat
  mismatches : Nat
deriving DecidableEq, Repr

/-- A demand line as READ_QUEUE reports it, with its position and effective rank (R61). -/
structure QueueLineReport where
  position : Nat
  line : DemandLine
  rank : Nat
deriving DecidableEq, Repr

/-- What READ_QUEUE reports (R61). -/
structure QueueReport where
  count : Nat
  watermark : Nat
  ageStep : Nat
  highArmed : Bool
  fullArmed : Bool
  returnsDropped : Nat
  ordersRefused : Nat
  lines : List QueueLineReport
deriving DecidableEq, Repr

/-- What READ_MANIFEST reports (R116); each line with its line number. -/
structure ManifestReport where
  number : Nat
  route : RouteId
  lap : Lap
  builtAt : Time
  state : BufferState
  seen : Nat
  overdue : Bool
  load : PerSize
  lineCount : Nat
  hasStops : Bool
  lines : List (Nat × ManifestLine)
deriving DecidableEq, Repr

/-- A line's kind in the pick list, with a rack's units; a bin's class is not given (R137). -/
inductive PickLoad where
  | bin
  | rack (first : SeqNo) (last : SeqNo) (positions : Nat)
deriving DecidableEq, Repr

/-- A line of the pick list (R137): the stop id is that of the live stop list, or none beyond it. -/
structure PickLine where
  number : Nat
  load : PickLoad
  slot : SlotId
  part : PartNo
  size : SizeClass
  stop : Nat
  stopId : Option Byte
  planned : Nat
  held : Nat
  state : LineState
deriving DecidableEq, Repr

/-- What READ_PICK_LIST reports (R137). -/
structure PickList where
  state : BufferState
  lineCount : Nat
  load : PerSize
  lines : List PickLine
deriving DecidableEq, Repr

/-- A line's kind at a stop, with a rack's first seq alone (R138). -/
inductive StopLoad where
  | bin
  | rack (first : SeqNo)
deriving DecidableEq, Repr

/-- An open line as READ_STOP_LINES reports it (R138). -/
structure StopLine where
  number : Nat
  load : StopLoad
  slot : SlotId
  part : PartNo
  held : Nat
  delivered : Nat
deriving DecidableEq, Repr

/-- What READ_STOP_LINES reports (R138); `isNext` marks the stop at the pointer before the first arrival. -/
structure StopLines where
  lap : Lap
  pointer : Nat
  isNext : Bool
  stop : Nat
  stopId : Option Byte
  openCount : Nat
  lines : List StopLine
deriving DecidableEq, Repr

/-- One route's counters in READ_COUNTERS (R182). -/
structure RouteCounters where
  late : Nat
  overdue : Nat
  held : Nat
  missed : Nat
  skipped : Nat
  mismatches : Nat
deriving DecidableEq, Repr

/-- One port's counters in READ_COUNTERS (R182). -/
structure PortCounters where
  frameErrors : Nat
  lost : Nat
deriving DecidableEq, Repr

/-- What READ_COUNTERS reports (R182). -/
structure CountersReport where
  returnsDropped : Nat
  ordersRefused : Nat
  routes : List RouteCounters
  ports : PerPort PortCounters
  short : Nat
  blocked : Nat
  discrepant : Nat
  withheld : Nat
deriving DecidableEq, Repr

/-- What a response carries beside its status: one form for each kind of answer the owning rules give. -/
inductive Body where
  | empty
  | status (r : StatusReport)
  | notices (markerBefore : Bool) (left : Nat) (items : List Notice)
  | noticeMode (mode : QueueMode) (threshold : Nat) (count : Nat) (marker : Bool)
  | slot (r : SlotReport)
  | route (r : RouteReport)
  | queue (r : QueueReport)
  | manifest (r : ManifestReport)
  | counters (r : CountersReport)
  | announced (count : Nat)
  | sequence (last : Option SeqNo) (count : Nat)
  | advanced (case : AdvanceCase) (pulled : Nat) (count : Nat)
  | snapshot (checked : Nat) (disagreed : Nat) (declared : Nat)
  | departed (lap : Lap) (lines : Nat) (stops : Nat)
  | arrived (stop : Nat) (returned : Nat) (openLines : Nat)
  | dropped (line : Nat) (slot : SlotId) (delivered : Nat) (held : Nat) (state : LineState)
  | missed (current : Nat) (openLines : Nat)
  | lapEnded (lap : Lap) (lines : Nat) (bins : Nat)
  | stopLines (r : StopLines)
  | lineCount (n : Nat)
  | held (n : Nat)
  | load (l : PerSize)
  | pickList (r : PickList)
  | was (set : Bool)
  | stagedSlot (cfg : SlotConfig)
  | stagedUsage (values : List Nat)
  | stagedRoute (cfg : RouteConfig)
  | stagedWindow (w : Window)
  | stagedGlobals (ageStep : Nat) (watermark : Nat)
  | changed (slots : Nat)
  | applyState (found : ApplyState)
  | gate (mode : GateMode) (isOpen : Bool) (fired : Bool)
  | granted (n : Nat)
  | limit (l : TopupLimit)
  | demandCancelled (containers : Nat) (cls : Option DemandClass)
  | manifestCancelled (lines : Nat) (bins : Nat)
  | discrepancyCleared (wasDiscrepant : Bool) (wasWithheld : Bool)
  | disagreement (kind : Option DiscKind) (count : Nat)
deriving DecidableEq, Repr

/-- A response frame, before its bytes (R164, 10.5). -/
structure Response where
  status : Status
  body : Body
deriving DecidableEq, Repr

/-! ## Port units (chapter 10) -/

/-- A port unit's receive state (R164), with what it has received of the request frame or shifted out of the response. -/
inductive Receive where
  | code
  | length (code : Byte)
  | payload (code : Byte) (declared : Nat) (got : List Byte)
  | response (frame : Response) (shifted : Nat)
  | discard
deriving DecidableEq, Repr

/-- A port unit (R164, R165), with the values of R175. `selected` says that CS_N has fallen and not risen; `sent` is the last
byte shifted out on MISO in this transaction (log 20). -/
structure PortUnit where
  selected : Bool := false
  rx : Receive := .code
  sent : Option Byte := none
  frameErrors : Nat := 0
deriving DecidableEq, Repr

/-! ## The whole device -/

/-- The state of the TD-48. `pending` is the queue of commands that wait, first in, first out. -/
structure State where
  pending : List Instr
  resetN : Level
  mode : DeviceMode
  plant : Time
  clocks : PerLine LineClock
  routes : Vector Route 6
  usage : PerLine LineUsage
  slots : Vector Slot 192
  seqs : PerLine LineSequence
  demand : DemandQueue
  coverage : Vector Window 12
  diverts : Vector Window 4
  image : Image
  applyState : ApplyState
  ports : PerPort PortUnit
  queues : PerPort NoticeQueue
deriving DecidableEq, Repr

/-- No rule of the spec gives the device a fault, so no meaning answers one: the type has no constructor. -/
inductive Fault
deriving DecidableEq, Repr

/-- Why a command has no meaning. -/
inductive Refusal where
  /-- Raised by an arm of `exec` whose command has no meaning yet: safe, since the machine stops; no arm uses it. -/
  | notModelled (mnemonic : String)
deriving DecidableEq, Repr

/-- The machine right after power-on or RESET_N (R180): every field at its power-on value, the mode COLD, no command
waiting. The RUN inputs stand low (log 2) and RESET_N has risen. -/
def State.reset : State where
  pending := []
  resetN := .high
  mode := .cold
  plant := 0
  clocks := ⟨{}, {}⟩
  routes := Vector.replicate 6 {}
  usage := ⟨{}, {}⟩
  slots := Vector.replicate 192 {}
  seqs := ⟨{}, {}⟩
  demand := {}
  coverage := Vector.replicate 12 {}
  diverts := Vector.replicate 4 {}
  image := {}
  applyState := .idle
  ports := ⟨{}, {}, {}, {}⟩
  queues := ⟨{}, {}, {}, {}⟩

end Sys2Proof.Machine
end

