-- ==== Sys2Proof/Config.lean ====
section
/-!
DEFINITION. What the manual leaves open, as constants without a body: nothing in Lean can evaluate one or prove a value of
it, so a theorem about the model holds whatever they are.
-/

namespace Sys2Proof

open Sys2Proof.Machine

/-- The form of a request's payload, on which its length may depend: a staging request's READ; its WRITE with the number of
entries it lists (the values of a STAGE_USAGE, the stops of a STAGE_ROUTE, the start level of a STAGE_SLOT where one is given);
`plain` for every other request, whose fields never vary in number (log 5). -/
inductive PayloadForm where
  | plain
  | read
  | write (entries : Nat)
deriving DecidableEq, Repr

/-- The length of the payload of a request code in a form. The manual gives no payload layout but the drop label's
(00_scope.md, "How the part is reached"; 10.5), so the lengths are free (log 5). -/
opaque Config.payloadLength : Byte → PayloadForm → Nat

/-- The field of a request code that stands at a place of its payload, as the payload's bytes spell it: free, as the lengths are
(log 5). -/
opaque Config.field {α : Type} [Inhabited α] : Byte → List Byte → Nat → α

/-- The payload bytes of a response body. The manual gives no response payload layout but the notice record's (10.5), so
they are free (log 6). -/
opaque Config.payloadBytes : Body → List Byte

/-- The bytes of a READ_NOTICES response that stand before its notice records (R171 gives what they carry, no rule gives
their layout; log 6). -/
opaque Config.noticesHeader : Bool → Nat → List Byte

/-- How many entries a STAGE_USAGE READ answers, named by line, row and first group (R156 names the entry by its index
fields and gives no number; log 9). -/
opaque Config.usageReadCount : Line → UsageRow → Nat → Nat

end Sys2Proof
end

