-- ==== Sys2Proof/Machine/Ops.lean ====
section
/-!
DEFINITION. The named operations over the state's containers: reading and updating one line's, port's, slot's or route's
part, the saturating counters, and the comparison of sequence numbers.
-/

namespace Sys2Proof.Machine

open Sys2Proof

/-! ## Containers -/

/-- The value of one line. -/
def PerLine.get {α : Type} (x : PerLine α) : Line → α
  | .a => x.a
  | .b => x.b

/-- Changes the value of one line. -/
def PerLine.modify {α : Type} (x : PerLine α) (l : Line) (f : α → α) : PerLine α :=
  match l with
  | .a => { x with a := f x.a }
  | .b => { x with b := f x.b }

/-- Changes the value of both lines alike. -/
def PerLine.map {α β : Type} (x : PerLine α) (f : α → β) : PerLine β :=
  ⟨f x.a, f x.b⟩

/-- The value of one port. -/
def PerPort.get {α : Type} (x : PerPort α) : Port → α
  | .lp => x.lp
  | .tp => x.tp
  | .sp => x.sp
  | .ep => x.ep

/-- Changes the value of one port. -/
def PerPort.modify {α : Type} (x : PerPort α) (p : Port) (f : α → α) : PerPort α :=
  match p with
  | .lp => { x with lp := f x.lp }
  | .tp => { x with tp := f x.tp }
  | .sp => { x with sp := f x.sp }
  | .ep => { x with ep := f x.ep }

/-- Changes the value of every port, each knowing its port. -/
def PerPort.map {α β : Type} (x : PerPort α) (f : Port → α → β) : PerPort β :=
  ⟨f .lp x.lp, f .tp x.tp, f .sp x.sp, f .ep x.ep⟩

/-- Changes every entry of a table alike. -/
def mapTable {α β : Type} {n : Nat} (f : α → β) (xs : Vector α n) : Vector β n :=
  ⟨⟨xs.toList.map f⟩, by simp⟩

/-- The other of a route's two buffers. -/
def Half.other : Half → Half
  | .lower => .upper
  | .upper => .lower

/-- One of a route's two buffers. -/
def Pair.get {α : Type} (x : Pair α) : Half → α
  | .lower => x.lower
  | .upper => x.upper

/-- Changes one of a route's two buffers. -/
def Pair.modify {α : Type} (x : Pair α) (h : Half) (f : α → α) : Pair α :=
  match h with
  | .lower => { x with lower := f x.lower }
  | .upper => { x with upper := f x.upper }

/-- The number of one size class. -/
def PerSize.get (x : PerSize) : SizeClass → Nat
  | .s => x.s
  | .m => x.m
  | .l => x.l

/-- Changes the number of one size class. -/
def PerSize.modify (x : PerSize) (z : SizeClass) (f : Nat → Nat) : PerSize :=
  match z with
  | .s => { x with s := f x.s }
  | .m => { x with m := f x.m }
  | .l => { x with l := f x.l }

/-! ## Parts of the state -/

/-- Every slot number, ascending. -/
def slotIds : List SlotId := List.finRange 192

/-- Every route number, ascending. -/
def routeIds : List RouteId := List.finRange 6

/-- A slot's live record (R1). -/
def State.slot (s : State) (i : SlotId) : Slot := s.slots[i]

/-- Changes one slot's live record. -/
def State.modSlot (s : State) (i : SlotId) (f : Slot → Slot) : State :=
  { s with slots := s.slots.set i (f s.slots[i]) }

/-- The slots whose record passes a test, ascending. -/
def State.slotsWhere (s : State) (p : Slot → Bool) : List SlotId :=
  slotIds.filter fun i => p (s.slot i)

/-- A route's state. -/
def State.route (s : State) (r : RouteId) : Route := s.routes[r]

/-- Changes one route's state. -/
def State.modRoute (s : State) (r : RouteId) (f : Route → Route) : State :=
  { s with routes := s.routes.set r (f s.routes[r]) }

/-- One of a route's buffers (R97). -/
def State.buffer (s : State) (r : RouteId) (h : Half) : Buffer := (s.route r).buffers.get h

/-- Changes one of a route's buffers. -/
def State.modBuffer (s : State) (r : RouteId) (h : Half) (f : Buffer → Buffer) : State :=
  s.modRoute r fun x => { x with buffers := x.buffers.modify h f }

/-- A line's sequence state (R24, R26). -/
def State.seq (s : State) (l : Line) : LineSequence := s.seqs.get l

/-- Changes one line's sequence state. -/
def State.modSeq (s : State) (l : Line) (f : LineSequence → LineSequence) : State :=
  { s with seqs := s.seqs.modify l f }

/-- A line's clock and gate (R76 to R79). -/
def State.clock (s : State) (l : Line) : LineClock := s.clocks.get l

/-- Changes one line's clock and gate. -/
def State.modClock (s : State) (l : Line) (f : LineClock → LineClock) : State :=
  { s with clocks := s.clocks.modify l f }

/-- A port unit (R164). -/
def State.port (s : State) (p : Port) : PortUnit := s.ports.get p

/-- Changes one port unit. -/
def State.modPort (s : State) (p : Port) (f : PortUnit → PortUnit) : State :=
  { s with ports := s.ports.modify p f }

/-- A port's notice queue (R169). -/
def State.queue (s : State) (p : Port) : NoticeQueue := s.queues.get p

/-- Changes one port's notice queue. -/
def State.modQueue (s : State) (p : Port) (f : NoticeQueue → NoticeQueue) : State :=
  { s with queues := s.queues.modify p f }

/-- Changes the demand queue. -/
def State.modDemand (s : State) (f : DemandQueue → DemandQueue) : State :=
  { s with demand := f s.demand }

/-! ## Numbers -/

/-- A statistics counter increased by k: 16 bits, it stays at 65535 (00_scope.md, "Counters"). -/
def bumpBy (k n : Nat) : Nat := min (n + k) 65535

/-- A statistics counter increased by 1. -/
def bump (n : Nat) : Nat := bumpBy 1 n

/-- A number held inside a range. -/
def clamp (lo hi n : Nat) : Nat := max lo (min n hi)

/-- Sequence number x is after y: (x − y) mod 65536 lies in 1..32767 (R25). -/
def seqAfter (x y : SeqNo) : Bool :=
  decide (1 ≤ (x - y).toNat ∧ (x - y).toNat ≤ 32767)

end Sys2Proof.Machine
end

