-- ==== Sys2Proof/Machine/Flags.lean ====
section
/-!
DEFINITION. The values the part works out when they are needed and never stores: a slot's levels and inventory position, a
demand line's rank, a notice's urgency and routing, the attention output, and the notice record.
-/

namespace Sys2Proof.Machine

open Sys2Proof

/-! ## A kanban slot's derived values (R4) -/

/-- S_mp, the full level in milliparts (R4). -/
def SlotConfig.fullMp (c : SlotConfig) : Nat := c.mc * c.cq * 1000

/-- ROP_mp, the reorder point in milliparts (R4). -/
def SlotConfig.ropMp (c : SlotConfig) : Nat := c.rop * 1000

/-- The start level in milliparts, held at S_mp (R4, R23). -/
def SlotConfig.startMp (c : SlotConfig) : Nat :=
  match c.start with
  | .full => c.fullMp
  | .parts n => min (n * 1000) c.fullMp

/-- IP, the inventory position in milliparts (R4). -/
def Slot.position (x : Slot) : Nat := x.oh + x.ordered * x.cfg.cq * 1000

/-- The slot takes draws, checks and the starvation test: its status is ACTIVE or SUSPENDED (R2). -/
def SlotConfig.running (c : SlotConfig) : Bool := c.status != .inactive

/-! ## Demand ranks (R43) -/

/-- A class's base rank (R43). -/
def DemandClass.rank : DemandClass → Nat
  | .urgent => 1
  | .kanban => 2
  | .topup => 3

/-- The better of two classes (R47). -/
def DemandClass.better (x y : DemandClass) : DemandClass :=
  if x.rank ≤ y.rank then x else y

/-- A demand line's effective rank under an AGE_STEP, never below 1 (R43). -/
def DemandLine.effectiveRank (ageStep : Nat) (d : DemandLine) : Nat :=
  if ageStep = 0 then d.cls.rank else max 1 (d.cls.rank - d.passes / ageStep)

/-! ## Notices (10.5) -/

/-- A notice kind is urgent (10.5). -/
def Event.urgent : Event → Bool
  | .late .. | .overdue .. | .shortfall .. | .seqStarved .. | .queueFull .. => true
  | .pickReady .. | .lapMissed .. | .seqBreak .. | .uncovered .. | .queueHigh .. | .discrepancy .. | .linesReturned ..
  | .planApplied .. | .modeChanged .. => false

/-- The ports a notice kind is routed to (10.5). -/
def Event.routedTo : Event → Port → Bool
  | .pickReady .., p => p == .sp || p == .tp
  | .lapMissed .., p => p == .sp || p == .ep
  | .late .., p => p == .sp || p == .ep
  | .overdue .., p => p == .tp || p == .ep
  | .shortfall .., p => p == .sp || p == .ep
  | .seqStarved .., p => p == .sp || p == .ep
  | .seqBreak .., p => p == .sp || p == .ep
  | .uncovered .., p => p == .ep
  | .queueFull .., p => p == .ep
  | .queueHigh .., p => p == .sp
  | .discrepancy .., p => p == .sp || p == .ep
  | .linesReturned .., p => p == .sp
  | .planApplied .., p => p == .ep || p == .lp
  | .modeChanged .., _ => true

/-- A kind's code (10.5). -/
def Event.code : Event → Byte
  | .pickReady .. => 0x01
  | .lapMissed .. => 0x02
  | .late .. => 0x03
  | .overdue .. => 0x04
  | .shortfall .. => 0x05
  | .seqStarved .. => 0x06
  | .seqBreak .. => 0x07
  | .uncovered .. => 0x08
  | .queueFull .. => 0x09
  | .queueHigh .. => 0x0A
  | .discrepancy .. => 0x0B
  | .linesReturned .. => 0x0C
  | .planApplied .. => 0x0D
  | .modeChanged .. => 0x0E

/-- A line's code as a subject (10.5). -/
def lineCode : Line → Byte
  | .a => 0
  | .b => 1

/-- A notice's subject byte, 0xFF for none (10.5). -/
def Event.subject : Event → Byte
  | .pickReady r .. | .lapMissed r .. | .late r .. | .overdue r .. | .linesReturned r .. => BitVec.ofNat 8 r.val
  | .shortfall i .. | .seqStarved i .. | .uncovered i .. | .queueFull i .. | .queueHigh i .. | .discrepancy i .. =>
    BitVec.ofNat 8 i.val
  | .seqBreak l .. => lineCode l
  | .planApplied (some l) .. => lineCode l
  | .planApplied none .. | .modeChanged .. => 0xFF

/-- A notice's lap or seq, 0 where its owning rule gives none (10.5). -/
def Event.lapOrSeq : Event → BitVec 16
  | .pickReady _ n _ | .lapMissed _ n _ | .late _ n _ | .overdue _ n _ | .linesReturned _ n .. => n
  | .shortfall _ n _ | .seqStarved _ n _ | .seqBreak _ n .. | .planApplied _ n .. => n
  | .uncovered .. | .queueFull .. | .queueHigh .. | .discrepancy .. | .modeChanged .. => 0

/-- The manifest state codes (10.5); FREE has none and is never a detail. -/
def BufferState.detail : BufferState → Nat
  | .free => 0
  | .offered => 1
  | .picking => 2
  | .loaded => 3
  | .onRoute => 4

/-- The starvation reason codes (10.5). -/
def StarveReason.detail : StarveReason → Nat
  | .unanchored => 1
  | .unannounced => 2
  | .notDelivered => 3

/-- The QUEUE_FULL cause codes (10.5). -/
def FullCause.detail : FullCause → Nat
  | .order => 1
  | .topup => 2
  | .return => 3

/-- The discrepancy kind codes (10.5). -/
def DiscKind.detail : DiscKind → Nat
  | .under => 1
  | .over => 2

/-- The policy codes (10.5). -/
def policyDetail : Policy → Nat
  | .report => 0
  | .resync => 1
  | .withhold => 2

/-- The LINES_RETURNED cause codes (10.5). -/
def ReturnCause.detail : ReturnCause → Nat
  | .shortPick => 1
  | .skipped => 2
  | .lapEnd => 3
  | .cancel => 4

/-- The apply mode codes (10.5). -/
def applyModeDetail : ApplyMode → Nat
  | .immediate => 0
  | .atMark => 1

/-- The device mode codes (10.5). -/
def DeviceMode.detail : DeviceMode → Nat
  | .cold => 0
  | .standby => 1
  | .active => 2

/-- A notice's details A and B (10.5). -/
def Event.details : Event → Nat × Nat
  | .pickReady _ _ n => (n, 0)
  | .lapMissed _ _ st => (st.detail, 0)
  | .late _ _ st => (st.detail, 0)
  | .overdue _ _ k => (k, 0)
  | .shortfall _ _ n => (0, n)
  | .seqStarved _ _ why => (why.detail, 0)
  | .seqBreak _ _ pulled orphans => (pulled, orphans)
  | .uncovered _ n => (n, 0)
  | .queueFull _ cause n => (cause.detail, n)
  | .queueHigh _ n => (n, 0)
  | .discrepancy _ kind policy => (kind.detail, policyDetail policy)
  | .linesReturned _ _ cause n => (cause.detail, n)
  | .planApplied _ _ mode n => (applyModeDetail mode, n)
  | .modeChanged new old => (new.detail, old.detail)

/-- A 16-bit number's two bytes, most significant first (10.5). -/
def bytes16 (x : BitVec 16) : List Byte := [x.extractLsb' 8 8, x.extractLsb' 0 8]

/-- A 32-bit number's four bytes, most significant first (10.5). -/
def bytes32 (x : BitVec 32) : List Byte :=
  [x.extractLsb' 24 8, x.extractLsb' 16 8, x.extractLsb' 8 8, x.extractLsb' 0 8]

/-- The notice record, 12 bytes (10.5). -/
def Notice.record (n : Notice) : List Byte :=
  [n.event.code, n.event.subject] ++ bytes16 n.event.lapOrSeq ++
  [BitVec.ofNat 8 n.event.details.1, if n.event.urgent then 1 else 0] ++
  bytes16 (BitVec.ofNat 16 n.event.details.2) ++ bytes32 n.time

/-- The number of urgent notices in a queue (R174). -/
def NoticeQueue.urgentCount (q : NoticeQueue) : Nat := q.items.countP (·.event.urgent)

/-- ATTN_N is asserted while the queue holds at least N notices or any urgent one (R173). -/
def NoticeQueue.asserted (q : NoticeQueue) : Bool :=
  decide (q.threshold ≤ q.items.length) || q.items.any (·.event.urgent)

/-- Judges the attention line again (R173). -/
def NoticeQueue.judge (q : NoticeQueue) : NoticeQueue := { q with attn := q.asserted }

/-! ## Manifest lines and buffers (R97, R121) -/

/-- A buffer holds a live manifest (R97). -/
def Buffer.live (b : Buffer) : Bool := b.state != .free

/-- A line's undelivered containers: held less delivered while PLANNED, none otherwise (R121). -/
def ManifestLine.undelivered (x : ManifestLine) : Nat :=
  if x.state = .planned then x.held - x.delivered else 0

/-- A line is a BIN line of a slot. -/
def ManifestLine.binOf (x : ManifestLine) (i : SlotId) : Bool :=
  match x.load with
  | .bin _ => x.slot == i
  | .rack .. => false

/-- A line is a RACK line of a slot. -/
def ManifestLine.rackOf (x : ManifestLine) (i : SlotId) : Bool :=
  match x.load with
  | .bin _ => false
  | .rack .. => x.slot == i

/-- A list of lines' held containers of one size class. -/
def heldOf (z : SizeClass) (lines : List ManifestLine) : Nat :=
  ((lines.filter (·.size == z)).map (·.held)).sum

/-- The carried load of a list of lines: the sum of held in each size class (R98). -/
def carriedLoad (lines : List ManifestLine) : PerSize :=
  ⟨heldOf .s lines, heldOf .m lines, heldOf .l lines⟩

/-- A list's entries with their numbers from 0. -/
def numbered {α : Type} (xs : List α) : List (Nat × α) := (List.range xs.length).zip xs

end Sys2Proof.Machine
end

