-- ==== Sys2Proof/Machine/Operands.lean ====
section
/-!
DEFINITION. The operand tests and clamps: the structural indexes that are refused with BAD_ARG, and what a staged field out
of its range is held at (00_scope.md, "Refusal and clamping"; R156).
-/

namespace Sys2Proof.Machine

open Sys2Proof

/-- A slot number, none above 191 (R1). -/
def slotOf? (n : Nat) : Option SlotId := if h : n < 192 then some ⟨n, h⟩ else none

/-- A route number, none above 5 (R120). -/
def routeOf? (n : Nat) : Option RouteId := if h : n < 6 then some ⟨n, h⟩ else none

/-- A variant, none above 31 (R27, R30). -/
def variantOf? (n : Nat) : Option Variant := if h : n < 32 then some ⟨n, h⟩ else none

/-- A usage group, none above 15 (R10). -/
def groupOf? (n : Nat) : Option (Fin 16) := if h : n < 16 then some ⟨n, h⟩ else none

/-- A sensor binding as staged: the outer none refuses a sensor above 63 (R5). -/
def sensorOf? : Option Nat → Option (Option (Fin 64))
  | none => some none
  | some n => if h : n < 64 then some (some ⟨n, h⟩) else none

/-- A staged slot record: none where R156 refuses it, else the record with the clamps made when staged (R3 to R6). -/
def stagedSlot? (f : SlotFields) : Option SlotConfig := do
  let kind ← f.kind
  let status ← f.status
  let line ← f.line
  let group ← groupOf? f.group
  let size ← f.size
  let sensor ← sensorOf? f.sensor
  let policy ← f.policy
  pure {
    kind := kind
    status := status
    line := line
    location := BitVec.ofNat 24 f.location
    part := f.part
    group := group
    allowance := min f.allowance 250
    size := size
    cq := clamp 1 9999 f.cq
    mc := clamp 1 4 f.mc
    rop := f.rop
    start := f.start.getD .full
    sensor := sensor
    eye := f.eye
    band := min f.band 255
    policy := policy
    rackSize := clamp 1 12 f.rackSize
    minLead := min f.minLead 24 }

/-- A staged route: none where R82 and R119 refuse it, else the route with its clamps (R82, R101). -/
def stagedRoute? (f : RouteFields) : Option RouteConfig := do
  let source ← f.source
  let matchMode ← f.matchMode
  if f.stops.length = 0 ∨ 16 < f.stops.length then none
  else pure {
    timing := {
      enabled := f.enabled
      source := source
      period := clamp 600 36000 f.period
      buildAt := f.buildAt.toNat
      departAt := f.departAt.toNat }
    caps := ⟨min f.capS 48, min f.capM 16, min f.capL 6⟩
    stops := f.stops
    matchMode := matchMode
    mask := f.mask }

/-- A staged or divert window: none for a route above 5, else the window with its clamps (R70). -/
def stagedWindow? (f : WindowFields) : Option Window := do
  let route ← routeOf? f.route
  pure {
    enabled := f.enabled
    base := BitVec.ofNat 24 f.base
    mask := BitVec.ofNat 24 f.mask
    route := route
    stopBase := min f.stopBase 15
    spread := f.spread.map (min · 20) }

/-- The clamps an apply makes against the staged MC and CQ, for a record whose kind is KANBAN (R159, R161). -/
def SlotConfig.applied (c : SlotConfig) : SlotConfig :=
  match c.kind with
  | .sequenced => c
  | .kanban => { c with
      rop := min c.rop ((c.mc - 1) * c.cq)
      start := match c.start with
        | .full => .full
        | .parts n => .parts (min n (c.mc * c.cq))
      eye := min c.eye (c.mc * c.cq) }

end Sys2Proof.Machine
end

