-- ==== Sys2Proof/Machine/Ports.lean ====
section
/-!
DEFINITION. Answering a request: the response a port unit is given (R164), the rights of each port (R166), and the two
wrappers every command's meaning goes through, which take nothing while RESET_N is low (R180).
-/

namespace Sys2Proof.Machine

open Sys2Proof

/-- The byte sent where no response byte stands (R164). -/
def fill : Byte := 0xFF

/-- The frame is complete and the request taken: the port unit enters RESPONSE with the response built from what the
request did, having sent fill with the frame's last byte (R164). -/
def reply (p : Port) (st : Status) (b : Body) (s : State) : State :=
  s.modPort p fun u => { u with selected := true, rx := .response ⟨st, b⟩ 0, sent := some fill }

/-- The request code of each request (R166). -/
def requestCode : Request → Byte
  | .readStatus => 0x01
  | .readNotices => 0x02
  | .setNoticeMode => 0x03
  | .readSlot => 0x04
  | .readRoute => 0x05
  | .readQueue => 0x06
  | .readManifest => 0x07
  | .announce => 0x10
  | .advance => 0x11
  | .sensorSnapshot => 0x12
  | .depart => 0x20
  | .arrive => 0x21
  | .drop => 0x22
  | .lapEnd => 0x23
  | .readStopLines => 0x24
  | .beginPick => 0x30
  | .shortPick => 0x31
  | .loadConfirm => 0x32
  | .ackLate => 0x33
  | .readPickList => 0x34
  | .stageSlot => 0x40
  | .stageUsage => 0x41
  | .stageRoute => 0x42
  | .stageWindow => 0x43
  | .stageGlobals => 0x44
  | .apply => 0x45
  | .cancelApply => 0x46
  | .setDivert => 0x47
  | .setGate => 0x48
  | .setHold => 0x49
  | .presetLate => 0x4A
  | .topup => 0x4B
  | .cancelDemand => 0x4C
  | .cancelManifest => 0x4D
  | .clearDiscrepancy => 0x4E
  | .start => 0x4F
  | .stop => 0x50
  | .runReset => 0x51
  | .readCounters => 0x52

/-- Every request the part knows (R166). -/
def allRequests : List Request :=
  [.readStatus, .readNotices, .setNoticeMode, .readSlot, .readRoute, .readQueue, .readManifest, .announce, .advance,
   .sensorSnapshot, .depart, .arrive, .drop, .lapEnd, .readStopLines, .beginPick, .shortPick, .loadConfirm, .ackLate,
   .readPickList, .stageSlot, .stageUsage, .stageRoute, .stageWindow, .stageGlobals, .apply, .cancelApply, .setDivert,
   .setGate, .setHold, .presetLate, .topup, .cancelDemand, .cancelManifest, .clearDiscrepancy, .start, .stop, .runReset,
   .readCounters]

/-- The request a code names, none for a code the part does not know (R166). -/
def requestOf? (code : Byte) : Option Request := allRequests.find? (requestCode · == code)

/-- The requests allowed on each port (R166). -/
def permitted (p : Port) : Request → Bool
  | .readStatus | .readNotices | .setNoticeMode | .readSlot | .readRoute | .readQueue | .readManifest => true
  | .announce | .advance | .sensorSnapshot => p == .lp
  | .depart | .arrive | .drop | .lapEnd | .readStopLines => p == .tp
  | .beginPick | .shortPick | .loadConfirm | .readPickList => p == .sp
  | .ackLate => p == .sp || p == .ep
  | .stageSlot | .stageUsage | .stageRoute | .stageWindow | .stageGlobals | .apply | .cancelApply | .setDivert | .setGate
  | .setHold | .presetLate | .topup | .cancelDemand | .cancelManifest | .clearDiscrepancy | .start | .stop | .runReset
  | .readCounters => p == .ep

/-- The port and the request of a command that is a request. -/
def requestIn? : Instr → Option (Port × Request)
  | .readStatus p => some (p, .readStatus)
  | .readNotices p .. => some (p, .readNotices)
  | .setNoticeMode p .. => some (p, .setNoticeMode)
  | .readSlot p .. => some (p, .readSlot)
  | .readRoute p .. => some (p, .readRoute)
  | .readQueue p .. => some (p, .readQueue)
  | .readManifest p .. => some (p, .readManifest)
  | .announce p .. => some (p, .announce)
  | .advance p .. => some (p, .advance)
  | .sensorSnapshot p .. => some (p, .sensorSnapshot)
  | .depart p .. => some (p, .depart)
  | .arrive p .. => some (p, .arrive)
  | .drop p .. => some (p, .drop)
  | .lapEnd p .. => some (p, .lapEnd)
  | .readStopLines p .. => some (p, .readStopLines)
  | .beginPick p .. => some (p, .beginPick)
  | .shortPick p .. => some (p, .shortPick)
  | .loadConfirm p .. => some (p, .loadConfirm)
  | .ackLate p .. => some (p, .ackLate)
  | .readPickList p .. => some (p, .readPickList)
  | .stageSlot p .. => some (p, .stageSlot)
  | .stageUsage p .. => some (p, .stageUsage)
  | .stageRoute p .. => some (p, .stageRoute)
  | .stageWindow p .. => some (p, .stageWindow)
  | .stageGlobals p .. => some (p, .stageGlobals)
  | .apply p .. => some (p, .apply)
  | .cancelApply p => some (p, .cancelApply)
  | .setDivert p .. => some (p, .setDivert)
  | .setGate p .. => some (p, .setGate)
  | .setHold p .. => some (p, .setHold)
  | .presetLate p .. => some (p, .presetLate)
  | .topup p .. => some (p, .topup)
  | .cancelDemand p .. => some (p, .cancelDemand)
  | .cancelManifest p .. => some (p, .cancelManifest)
  | .clearDiscrepancy p .. => some (p, .clearDiscrepancy)
  | .start p => some (p, .start)
  | .stop p => some (p, .stop)
  | .runReset p => some (p, .runReset)
  | .readCounters p => some (p, .readCounters)
  | .powerOn | .resetN _ | .runEdge .. | .decisecondEnd | .wrap _ | .buildPoint _ | .departurePoint _ | .skippedPoint _
  | .frameDiscard .. | .unknown .. | .csNFall _ | .byteReceived .. | .transactionEnd _ => none

/-- A request's frame completes on a port (log 3): nothing is taken while RESET_N is low (R180); a request not allowed on
the port is answered NOT_PERMITTED (R166); otherwise its owner takes it. -/
def takeRequest (p : Port) (q : Request) (s : State) (owner : State → State) : Host.Outcome State Fault Refusal :=
  .next (if s.resetN = .low then s else if permitted p q then owner s else reply p .notPermitted .empty s)

/-- An event inside the part or on a pin: nothing happens while RESET_N is low (R180). -/
def takeEvent (s : State) (event : State → State) : Host.Outcome State Fault Refusal :=
  .next (if s.resetN = .low then s else event s)

end Sys2Proof.Machine
end

