-- ==== Sys2Proof/Machine/Coverage.lean ====
section
/-!
DEFINITION. The coverage table: when a code hits a window, the deciding window, and the stop it gives (R63 to R68); and
SET_DIVERT (R71).
-/

namespace Sys2Proof.Machine

open Sys2Proof

/-- A code hits a window: the window is enabled and the two agree wherever the mask holds a 1 (R64). -/
def Window.hits (w : Window) (code : Location) : Bool :=
  w.enabled && (code &&& w.mask == w.base &&& w.mask)

/-- The deciding window: diverts 0 to 3, then coverage windows 0 to 11, the first the code hits (R65). -/
def State.decidingWindow (s : State) (code : Location) : Option Window :=
  (s.diverts.toList ++ s.coverage.toList).find? (·.hits code)

/-- A window's raw stop for a code (R66, steps 1 and 2). -/
def Window.rawStop (w : Window) (code : Location) : Nat :=
  match w.spread with
  | none => w.stopBase
  | some p => w.stopBase + (code.extractLsb' p 4).toNat

/-- A location code's mapping: route and stop, the stop held at the route's live stop count less 1, or NONE (R65, R66). -/
def State.mapCode (s : State) (code : Location) : Option (RouteId × Nat) :=
  (s.decidingWindow code).map fun w =>
    (w.route, min (w.rawStop code) ((s.route w.route).cfg.stops.length - 1))

/-- A slot's mapping (R67, R68). -/
def State.mapSlot (s : State) (i : SlotId) : Option (RouteId × Nat) := s.mapCode (s.slot i).cfg.location

/-- SET_DIVERT's own tests and effect (R71). An accepted request replaces all six fields with those it sends, also where it sends
enabled clear with other fields than those held. DESIGN CHOICE, unsafe (log 25): of that request R71 says both that it "replaces
all six fields" and that it "keeps its other fields". -/
def setDivert (p : Port) (index : Nat) (f : WindowFields) (s : State) : State :=
  match (if h : index < 4 then some (⟨index, h⟩ : Fin 4) else none), stagedWindow? f with
  | some k, some w => reply p .ok (.stagedWindow w) { s with diverts := s.diverts.set k w }
  | _, _ => reply p .badArg .empty s

/-- SET_DIVERT (R71). -/
def execSetDivert (p : Port) (index : Nat) (f : WindowFields) (s : State) : Host.Outcome State Fault Refusal :=
  takeRequest p .setDivert s (setDivert p index f)

end Sys2Proof.Machine
end

