-- ==== Sys2Proof/Machine/Notices.lean ====
section
/-!
DEFINITION. The notice unit: how a copy of a notice reaches a port's queue (R168 to R170), and raising a notice.
-/

namespace Sys2Proof.Machine

open Sys2Proof

/-- A copy that cannot be taken: the marker is set and the copy counted as lost (R169). -/
def NoticeQueue.lose (q : NoticeQueue) : NoticeQueue := { q with marker := true, lost := bump q.lost }

/-- A copy joins at the tail (R169, R170). -/
def NoticeQueue.join (q : NoticeQueue) (n : Notice) : NoticeQueue := { q with items := q.items ++ [n] }

/-- A copy arrives at a queue and is handled under the queue's mode (R169, R170); the attention line is judged after the
change (R173). -/
def NoticeQueue.arrive (q : NoticeQueue) (n : Notice) : NoticeQueue :=
  match q.mode with
  | .halt =>
    if q.marker = false ∧ q.items.length < 16 then (q.join n).judge else q.lose.judge
  | .stream =>
    if q.items.length < 16 then (q.join n).judge
    else (({ q with items := q.items.tail } : NoticeQueue).lose.join n).judge

/-- Raises a notice: a copy stamped with the present plant time for each port its kind is routed to (R168). -/
def State.raise (s : State) (e : Event) : State :=
  { s with queues := s.queues.map fun p q => if e.routedTo p then q.arrive ⟨e, s.plant⟩ else q }

end Sys2Proof.Machine
end

