-- ==== Sys2Proof/Machine/Demand.lean ====
section
/-!
DEFINITION. The demand queue: creating, merging, assigning, returning and cancelling (R42 to R60); CANCEL_DEMAND and TOPUP.
-/

namespace Sys2Proof.Machine

open Sys2Proof

/-- A slot's OPEN line, if it has one (R42). -/
def State.openLine (s : State) (i : SlotId) : Option DemandLine := s.demand.lines.find? (·.slot == i)

/-- The containers of a slot's OPEN line, 0 if it has none (R8). -/
def State.openContainers (s : State) (i : SlotId) : Nat := ((s.openLine i).map (·.containers)).getD 0

/-- A removal re-arms QUEUE_HIGH below W (R59) and QUEUE_FULL below 112 (R60). -/
def DemandQueue.rearm (d : DemandQueue) : DemandQueue :=
  { d with
    highArmed := d.highArmed || decide (d.lines.length < d.watermark)
    fullArmed := d.fullArmed || decide (d.lines.length < 112) }

/-- Removes a slot's OPEN line; the lines behind it close up (R42). -/
def State.removeOpen (s : State) (i : SlotId) : State :=
  s.modDemand fun d => ({ d with lines := d.lines.filter (·.slot != i) } : DemandQueue).rearm

/-- Changes a slot's OPEN line where it stands. -/
def State.modOpen (s : State) (i : SlotId) (f : DemandLine → DemandLine) : State :=
  s.modDemand fun d => { d with lines := d.lines.map fun x => if x.slot == i then f x else x }

/-- Takes n of the containers of a slot's OPEN line: the whole line leaves if none is left, otherwise it keeps the rest in
its place (R50, R56). -/
def State.takeOpen (s : State) (i : SlotId) (n : Nat) : State :=
  if s.openContainers i ≤ n then s.removeOpen i
  else s.modOpen i fun x => { x with containers := x.containers - n }

/-- Merges containers of a class into a slot's OPEN line (R47). -/
def State.mergeOpen (s : State) (i : SlotId) (n : Nat) (cls : DemandClass) : State :=
  s.modOpen i fun x => { x with containers := x.containers + n, cls := x.cls.better cls }

/-- QUEUE_HIGH is judged at a creation that brings the count to W (R59). -/
def State.judgeHigh (s : State) (i : SlotId) : State :=
  if s.demand.lines.length = s.demand.watermark ∧ s.demand.highArmed then
    (s.raise (.queueHigh i s.demand.lines.length)).modDemand fun d => { d with highArmed := false }
  else s

/-- Creates a slot's line at the tail, present plant time, passes 0, the uncovered flag from the coverage table; clears the
slot's ORDER_BLOCKED; raises UNCOVERED and judges QUEUE_HIGH (R46, R47, R57, R59). -/
def State.createOpen (s : State) (i : SlotId) (n : Nat) (cls : DemandClass) : State :=
  let uncovered := (s.mapSlot i).isNone
  let s1 := (s.modDemand fun d => { d with lines := d.lines ++ [⟨i, n, cls, s.plant, 0, uncovered⟩] }).modSlot i
    fun x => { x with blocked := false }
  (if uncovered then s1.raise (.uncovered i n) else s1).judgeHigh i

/-- The queue refuses to create a line: QUEUE_FULL is raised if armed, and disarmed (R60). -/
def State.refuseLine (s : State) (i : SlotId) (cause : FullCause) (n : Nat) : State :=
  if s.demand.fullArmed then
    (s.raise (.queueFull i cause n)).modDemand fun d => { d with fullArmed := false }
  else s

/-- Counts containers dropped from returns (R61). -/
def State.countDropped (s : State) (n : Nat) : State :=
  s.modDemand fun d => { d with returnsDropped := bumpBy n d.returnsDropped }

/-- Lowers a slot's ordered (R8). -/
def State.lowerOrdered (s : State) (i : SlotId) (n : Nat) : State :=
  s.modSlot i fun x => { x with ordered := x.ordered - n }

/-- Raises a slot's ordered (R8). -/
def State.raiseOrdered (s : State) (i : SlotId) (n : Nat) : State :=
  s.modSlot i fun x => { x with ordered := x.ordered + n }

/-- A slot's order of n containers, class KANBAN: merged, created under 112 lines, or refused (R19, R46). -/
def State.order (s : State) (i : SlotId) (n : Nat) : State :=
  if (s.openLine i).isSome then
    ((s.mergeOpen i n .kanban).raiseOrdered i n).modSlot i fun x => { x with blocked := false }
  else if s.demand.lines.length < 112 then (s.createOpen i n .kanban).raiseOrdered i n
  else
    ((s.modDemand fun d => { d with ordersRefused := bump d.ordersRefused }).modSlot i
      fun x => { x with blocked := true }).refuseLine i .order n

/-- Places a return's containers: merged, created under 128 lines, or dropped (R53). -/
def State.placeReturn (s : State) (i : SlotId) (n : Nat) (cls : DemandClass) : State :=
  if (s.openLine i).isSome then s.mergeOpen i n cls
  else if s.demand.lines.length < 128 then s.createOpen i n cls
  else ((s.lowerOrdered i n).countDropped n).refuseLine i .return n

/-- A return of n containers of a slot: the trims of R54 first, then the rest is placed (R53, R54). -/
def State.returnBins (s : State) (i : SlotId) (n : Nat) (cls : DemandClass) : State :=
  let x := s.slot i
  match x.cfg.kind, x.cfg.status with
  | .sequenced, _ => s.countDropped n
  | .kanban, .inactive => (s.lowerOrdered i n).countDropped n
  | .kanban, _ =>
    if x.cfg.mc < x.ordered then
      let cut := min n (x.ordered - x.cfg.mc)
      let s1 := (s.lowerOrdered i cut).countDropped cut
      if n - cut = 0 then s1 else s1.placeReturn i (n - cut) cls
    else s.placeReturn i n cls

/-- An apply cancels up to n containers of a slot's OPEN line, and ordered falls by those removed (R56). -/
def State.cancelOpen (s : State) (i : SlotId) (n : Nat) : State :=
  let k := min n (s.openContainers i)
  if k = 0 then s else (s.takeOpen i k).lowerOrdered i k

/-- The re-test of the uncovered flags at a build point, front to back (R58). -/
def State.retestUncovered (s : State) : State :=
  let newly := s.demand.lines.filter fun x => !x.uncovered && (s.mapSlot x.slot).isNone
  let s1 := s.modDemand fun d => { d with lines := d.lines.map fun x =>
    { x with uncovered := (s.mapSlot x.slot).isNone } }
  newly.foldl (fun t x => t.raise (.uncovered x.slot x.containers)) s1

/-- TOPUP's own tests and effect, in the order of R48. Where it is answered AT_MAX with limit QUEUE, the QUEUE_FULL it may raise
gives as containers refused the grant g, bounded by MC − ordered, and not the number asked for (DESIGN CHOICE: R60 says only
"the containers refused"; log 23). -/
def topup (p : Port) (slot : Nat) (n : Byte) (s : State) : State :=
  if s.mode = .cold then reply p .notActive .empty s else
  match slotOf? slot with
  | none => reply p .badArg .empty s
  | some i =>
    if n = 0 then reply p .badArg .empty s else
    let x := s.slot i
    if x.cfg.kind = .sequenced ∨ x.cfg.status = .inactive then reply p .wrongState .empty s else
    let g := min n.toNat (x.cfg.mc - x.ordered)
    if g = 0 then reply p .atMax (.limit .slot) s
    else if (s.openLine i).isSome then
      reply p .ok (.granted g) ((s.mergeOpen i g .topup).raiseOrdered i g)
    else if s.demand.lines.length < 112 then
      reply p .ok (.granted g) ((s.createOpen i g .topup).raiseOrdered i g)
    else reply p .atMax (.limit .queue) (s.refuseLine i .topup g)

/-- TOPUP (R48). -/
def execTopup (p : Port) (slot : Nat) (n : Byte) (s : State) : Host.Outcome State Fault Refusal :=
  takeRequest p .topup s (topup p slot n)

/-- CANCEL_DEMAND's own tests and effect (R49). -/
def cancelDemand (p : Port) (slot : Nat) (s : State) : State :=
  match slotOf? slot with
  | none => reply p .badArg .empty s
  | some i =>
    match s.openLine i with
    | none => reply p .ok (.demandCancelled 0 none) s
    | some x => reply p .ok (.demandCancelled x.containers (some x.cls)) ((s.removeOpen i).lowerOrdered i x.containers)

/-- CANCEL_DEMAND (R49). -/
def execCancelDemand (p : Port) (slot : Nat) (s : State) : Host.Outcome State Fault Refusal :=
  takeRequest p .cancelDemand s (cancelDemand p slot)

end Sys2Proof.Machine
end

