-- ==== Sys2Proof/Machine/Slots.lean ====
section
/-!
DEFINITION. The slot table and the usage engine: the draw, the bin delivery and the reorder evaluation (R7 to R20).
-/

namespace Sys2Proof.Machine

open Sys2Proof

/-- A usage matrix entry (R10). -/
def LineUsage.quantity (u : LineUsage) (v : Variant) (g : Fin 16) : Nat := (u.q[v])[g]

/-- The draw in milliparts: the product formed exactly and rounded once, half up (R13). -/
def drawMp (quantity groupAllowance slotAllowance : Nat) : Nat :=
  (quantity * (1000 + groupAllowance) * (1000 + slotAllowance) + 500) / 1000

/-- The draw a unit of a variant takes from a slot (R13). -/
def State.draw (s : State) (i : SlotId) (v : Variant) : Nat :=
  let c := (s.slot i).cfg
  let u := s.usage.get c.line
  drawMp (u.quantity v c.group) u.allowance[c.group] c.allowance

/-- The containers an order asks for: floor((S_mp − IP) / (CQ × 1000)), bounded by MC − ordered (R19). -/
def Slot.orderSize (x : Slot) : Nat :=
  min ((x.cfg.fullMp - x.position) / (x.cfg.cq * 1000)) (x.cfg.mc - x.ordered)

/-- A slot's reorder evaluation (R18, R19); a SEQUENCED slot never runs one. -/
def State.evaluate (s : State) (i : SlotId) : State :=
  let x := s.slot i
  if x.cfg.kind = .sequenced then s
  else if x.cfg.status ≠ .active ∨ x.withheld then s.modSlot i fun x => { x with blocked := false }
  else if x.cfg.ropMp ≤ x.position then s.modSlot i fun x => { x with blocked := false }
  else s.order i x.orderSize

/-- What a draw does to a slot's record, SHORT apart: OH falls by it or to 0, and a draw beyond OH counts a shortfall
(R14). -/
def Slot.drawn (x : Slot) (d : Nat) : Slot :=
  { x with oh := x.oh - d, shortfalls := if x.oh < d then bump x.shortfalls else x.shortfalls }

/-- A draw is applied to a slot: nothing for a draw of 0; otherwise OH, the shortfall, SHORT with its notice, and the
evaluation (R14, R15, R18). -/
def State.applyDraw (s : State) (i : SlotId) (d : Nat) (seq : SeqNo) : State :=
  if d = 0 then s
  else
    let x := (s.slot i).drawn d
    let s1 := s.modSlot i fun x => x.drawn d
    let s2 :=
      if x.oh = 0 ∧ x.short = false then
        (s1.modSlot i fun x => { x with short := true }).raise (.shortfall i seq x.shortfalls)
      else s1
    s2.evaluate i

/-- The kanban slots of a line that an advance draws on (R12). -/
def Slot.drawnBy (l : Line) (x : Slot) : Bool :=
  x.cfg.kind == .kanban && x.cfg.running && x.cfg.line == l

/-- One slot's part of an advance: its draw, computed and applied (R12). -/
def State.drawSlot (v : Variant) (seq : SeqNo) (s : State) (i : SlotId) : State := s.applyDraw i (s.draw i v) seq

/-- The usage engine takes a consumed unit: nothing for variant 0; otherwise every kanban slot of the line that is ACTIVE or
SUSPENDED, in ascending slot number, each whole before the next (R12). -/
def State.drawLine (s : State) (l : Line) (v : Variant) (seq : SeqNo) : State :=
  if v = 0 then s else (s.slotsWhere (Slot.drawnBy l)).foldl (State.drawSlot v seq) s

/-- What a delivered bin does to a KANBAN slot's record (R16). -/
def Slot.delivered (x : Slot) : Slot :=
  let sum := x.oh + x.cfg.cq * 1000
  let oh := min sum x.cfg.fullMp
  { x with
    oh := oh
    ordered := x.ordered - 1
    overfills := if x.cfg.fullMp < sum then bump x.overfills else x.overfills
    short := x.short && decide (oh = 0) }

/-- A bin is delivered to a slot (R16); the record of a slot whose kind is now SEQUENCED is left as it was. -/
def State.deliverBin (s : State) (i : SlotId) : State :=
  if (s.slot i).cfg.kind = .sequenced then s else (s.modSlot i Slot.delivered).evaluate i

end Sys2Proof.Machine
end

