-- ==== Sys2Proof/Machine/Sequence.lean ====
section
/-!
DEFINITION. The sequence unit: qualification, eligibility and racks, the marks, announcing, and the parts of an advance
(R24 to R39). ADVANCE itself stands with the staging unit, whose apply it may take.
-/

namespace Sys2Proof.Machine

open Sys2Proof

/-- A variant qualifies for a slot: the live matrix of the slot's line holds a Q above 0 at its group (R35). -/
def State.qualifies (s : State) (i : SlotId) (v : Variant) : Bool :=
  let c := (s.slot i).cfg
  decide (0 < (s.usage.get c.line).quantity v c.group)

/-- A rack as R36 works it out. -/
structure Rack where
  first : SeqNo
  last : SeqNo
  positions : Nat
deriving DecidableEq, Repr

/-- The rack that covers a run of units, none for no unit (R36). -/
def rackOfUnits : List AnnouncedUnit → Option Rack
  | [] => none
  | u :: us => some ⟨u.seq, ((u :: us).getLast (List.cons_ne_nil u us)).seq, (u :: us).length⟩

/-- The qualifying units of a slot in its line's list, in list order (R36). -/
def State.qualifyingUnits (s : State) (i : SlotId) : List AnnouncedUnit :=
  (s.seq (s.slot i).cfg.line).units.filter fun u => s.qualifies i u.variant

/-- The beyond units of a slot with given marks (R36). -/
def State.beyond (s : State) (i : SlotId) (m : Marks) : List AnnouncedUnit :=
  (s.qualifyingUnits i).filter fun u => seqAfter u.seq m.covered

/-- The lead of a slot with given marks (R36). -/
def State.lead (s : State) (i : SlotId) (m : Marks) : Nat :=
  ((s.qualifyingUnits i).filter fun u => !seqAfter u.seq m.delivered).length

/-- A slot's rack at this build, if it is eligible for one (R36). -/
def State.eligibleRack (s : State) (i : SlotId) : Option Rack :=
  match (s.slot i).marks with
  | none => none
  | some m =>
    let c := (s.slot i).cfg
    let units := s.beyond i m
    if c.rackSize ≤ units.length ∨ (s.lead i m < c.minLead ∧ 1 ≤ units.length) then
      rackOfUnits (units.take c.rackSize)
    else none

/-- The builder places a rack: covered-through becomes its last seq (R37). -/
def State.coverThrough (s : State) (i : SlotId) (last : SeqNo) : State :=
  s.modSlot i fun x => { x with marks := x.marks.map fun m => { m with covered := last } }

/-- What a delivered rack does to a slot's marks (R38). -/
def Marks.delivers (m : Marks) (last : SeqNo) : Marks :=
  let delivered := if seqAfter last m.delivered then last else m.delivered
  { covered := if seqAfter delivered m.covered then delivered else m.covered, delivered := delivered }

/-- A rack line is delivered (R38). -/
def State.deliverRack (s : State) (i : SlotId) (last : SeqNo) : State :=
  s.modSlot i fun x => { x with marks := x.marks.map fun m => m.delivers last }

/-- A rack line is rolled back: covered-through becomes delivered-through (R39). -/
def State.rollback (s : State) (i : SlotId) : State :=
  s.modSlot i fun x => { x with marks := x.marks.map fun m => { m with covered := m.delivered } }

/-- The marks a re-base gives against a line (R29). -/
def LineSequence.rebased (q : LineSequence) : Option Marks :=
  match q.last with
  | none => none
  | some last =>
    match q.units with
    | [] => some ⟨last, last⟩
    | u :: _ => some ⟨u.seq - 1, u.seq - 1⟩

/-- Anchoring a line at seq: every SEQUENCED slot of the line, in any status, takes both marks equal to seq − 1 (R27). -/
def State.anchor (s : State) (l : Line) (seq : SeqNo) : State :=
  { s with slots := mapTable (fun x =>
      if x.cfg.kind = .sequenced ∧ x.cfg.line = l then { x with marks := some ⟨seq - 1, seq - 1⟩ } else x) s.slots }

/-- An accepted ANNOUNCE's append (R27). -/
def LineSequence.append (q : LineSequence) (u : AnnouncedUnit) : LineSequence :=
  { units := q.units ++ [u], last := some u.seq }

/-- ANNOUNCE's own tests and effect, in the order of R27. A refusal carries the line's last announced number and its count;
a refusal for a line that is neither A nor B has no line to report (log 11). -/
def announce (p : Port) (line : Option Line) (seq : SeqNo) (variant : Nat) (mark : Bool) (s : State) : State :=
  match line with
  | none => reply p (if s.mode = .active then .badArg else .notActive) .empty s
  | some l =>
    let q := s.seq l
    let refuse (st : Status) : State := reply p st (.sequence q.last q.units.length) s
    if s.mode ≠ .active then refuse .notActive else
    match variantOf? variant with
    | none => refuse .badArg
    | some v =>
      if 64 ≤ q.units.length then refuse .listFull else
      let accept (t : State) : State :=
        reply p .ok (.announced (q.units.length + 1)) (t.modSeq l fun q => q.append ⟨seq, v, mark⟩)
      match q.last with
      | none => accept (s.anchor l seq)
      | some last => if seq = last + 1 then accept s else refuse .outOfOrder

/-- ANNOUNCE (R27). -/
def execAnnounce (p : Port) (line : Option Line) (seq : SeqNo) (variant : Nat) (mark : Bool) (s : State) :
    Host.Outcome State Fault Refusal :=
  takeRequest p .announce s (announce p line seq variant mark)

/-! ## The parts of an advance -/

/-- An advance as the sequence unit settles it (R30): the case, the pulled units, whether the removed units carry the plan
mark, and the list after it. -/
structure Settled where
  case : AdvanceCase
  pulled : List AnnouncedUnit
  marked : Bool
  rest : List AnnouncedUnit
deriving DecidableEq, Repr

/-- Settles an advance against a line's list (R30): HEAD at position 0, PULLED at a later position, UNANNOUNCED outside the
list. `marked` covers the consumed unit's record and the pulled units (R32). -/
def settle (units : List AnnouncedUnit) (seq : SeqNo) : Settled :=
  match units.findIdx? (·.seq == seq) with
  | none => ⟨.unannounced, [], false, units⟩
  | some k => ⟨if k = 0 then .head else .pulled, units.take k, (units.take (k + 1)).any (·.mark), units.drop (k + 1)⟩

/-- The SEQUENCED slots of a line that the sequence unit tests: status ACTIVE or SUSPENDED (R31, R34). -/
def Slot.testedBy (l : Line) (x : Slot) : Bool :=
  x.cfg.kind == .sequenced && x.cfg.running && x.cfg.line == l

/-- A pulled unit is an orphan at a slot: it qualifies, and its seq is not after the slot's delivered-through (R31). -/
def State.orphanAt (s : State) (u : AnnouncedUnit) (i : SlotId) : Bool :=
  match (s.slot i).marks with
  | none => false
  | some m => s.qualifies i u.variant && !seqAfter u.seq m.delivered

/-- The orphans of the pulled units, one for each unit and slot, saturating at 65535 (R31). -/
def State.orphans (s : State) (l : Line) (pulled : List AnnouncedUnit) : Nat :=
  min 65535 ((pulled.map fun u => ((s.slotsWhere (Slot.testedBy l)).filter fun i => s.orphanAt u i).length).sum)

/-- Settling the list: the removed units leave, and a PULLED advance raises one SEQ_BREAK with the orphans counted before
(R30, R31). -/
def State.settleList (s : State) (l : Line) (seq : SeqNo) (a : Settled) : State :=
  let s1 := s.modSeq l fun q => { q with units := a.rest }
  if a.case = .pulled then s1.raise (.seqBreak l seq a.pulled.length (s.orphans l a.pulled)) else s1

/-- The reason a qualifying unit was not supplied at a slot, the first that holds, or none (R34). -/
def State.starveReason (s : State) (i : SlotId) (case : AdvanceCase) (seq : SeqNo) : Option StarveReason :=
  match (s.slot i).marks with
  | none => some .unanchored
  | some m =>
    if case = .unannounced then some .unannounced
    else if seqAfter seq m.delivered then some .notDelivered
    else none

/-- One slot's starvation test (R34). -/
def State.starveSlot (v : Variant) (case : AdvanceCase) (seq : SeqNo) (s : State) (i : SlotId) : State :=
  if s.qualifies i v then
    match s.starveReason i case seq with
    | none => s
    | some why => s.raise (.seqStarved i seq why)
  else s

/-- The starvation test of an advance, in ascending slot number (R33, R34). -/
def State.starveLine (s : State) (l : Line) (v : Variant) (case : AdvanceCase) (seq : SeqNo) : State :=
  (s.slotsWhere (Slot.testedBy l)).foldl (State.starveSlot v case seq) s

end Sys2Proof.Machine
end

