-- ==== Sys2Proof/Machine/Lap.lean ====
section
/-!
DEFINITION. The lap tracker: the manifest pool (R97), handing lines back (R122, R123), freeing a buffer (R136), picking
(R124 to R127), departure, arrival, drops and the lap's end (R128 to R136).
-/

namespace Sys2Proof.Machine

open Sys2Proof

/-! ## The pool -/

/-- A route's live manifests, the older first (R97). -/
def Route.liveHalves (x : Route) : List Half :=
  [x.older, x.older.other].filter fun h => (x.buffers.get h).live

/-- The live manifest a route and a lap name, the older where both match (R97). -/
def State.manifest (s : State) (r : RouteId) (lap : Lap) : Option Half :=
  (s.route r).liveHalves.find? fun h => (s.buffer r h).lap == lap

/-- The route's oldest live manifest in a state (R128, R129). -/
def State.manifestIn (s : State) (r : RouteId) (st : BufferState) : Option Half :=
  (s.route r).liveHalves.find? fun h => (s.buffer r h).state == st

/-- Frees a buffer: FREE with no lines, the other live manifest the older, and the pointer and current stop restored if it
was ON_ROUTE (R97, R136). -/
def Route.freed (x : Route) (h : Half) : Route :=
  let b := x.buffers.get h
  let y := { x with
    buffers := x.buffers.modify h fun b => { b with state := .free, lines := [] }
    older := if (x.buffers.get h.other).live then h.other else x.older }
  if b.state = .onRoute then { y with pointer := 0, current := none } else y

/-! ## Handing lines back -/

/-- Returns a line with n containers and a class: bins to the demand queue, a rack rolled back (R122). -/
def State.returnLine (s : State) (x : ManifestLine) (n : Nat) (cls : DemandClass) : State :=
  match x.load with
  | .bin _ => if n = 0 then s else s.returnBins x.slot n cls
  | .rack .. => s.rollback x.slot

/-- A line that a request hands back: still PLANNED, and one of those the request names. -/
def handedBack (sel : ManifestLine → Bool) (x : ManifestLine) : Bool := x.state == .planned && sel x

/-- The lines of a buffer that a request hands back, in manifest order. -/
def State.backLines (s : State) (r : RouteId) (h : Half) (sel : ManifestLine → Bool) : List ManifestLine :=
  (s.buffer r h).lines.filter (handedBack sel)

/-- Hands back one line with its undelivered containers and the class it goes back with. -/
def State.returnPlanned (cls : ManifestLine → DemandClass) (s : State) (x : ManifestLine) : State :=
  s.returnLine x x.undelivered (cls x)

/-- A line that was handed back becomes RETURNED (R121). -/
def markReturned (sel : ManifestLine → Bool) (x : ManifestLine) : ManifestLine :=
  if handedBack sel x then { x with state := .returned } else x

/-- Hands back every named line still PLANNED, one at a time in manifest order, and sets each to RETURNED (R122). -/
def State.handBack (s : State) (r : RouteId) (h : Half) (sel : ManifestLine → Bool) (cls : ManifestLine → DemandClass) :
    State :=
  ((s.backLines r h sel).foldl (State.returnPlanned cls) s).modBuffer r h
    fun b => { b with lines := b.lines.map (markReturned sel) }

/-- The bin containers in a list of lines handed back (R127, R135). -/
def binsBack (lines : List ManifestLine) : Nat :=
  (lines.map fun x => match x.load with | .bin _ => x.undelivered | .rack .. => 0).sum

/-- LINES_RETURNED, if the request returned any line (R123). -/
def State.tellReturned (s : State) (r : RouteId) (lap : Lap) (cause : ReturnCause) (n : Nat) : State :=
  if n = 0 then s else s.raise (.linesReturned r lap cause n)

/-- The class URGENT, for every return but a cancel's (R52). -/
def asUrgent (_ : ManifestLine) : DemandClass := .urgent

/-- The class a bin line took at selection (R52); a rack's is not read. -/
def asSelected (x : ManifestLine) : DemandClass :=
  match x.load with
  | .bin c => c
  | .rack .. => .urgent

/-! ## The tests of R120 -/

/-- The range and lookup tests of a request that names a manifest by route and lap (R120, tests 2 and 3). -/
def atManifest (p : Port) (route : Nat) (lap : Lap) (s : State) (k : RouteId → Half → State) : State :=
  match routeOf? route with
  | none => reply p .badArg .empty s
  | some r =>
    match s.manifest r lap with
    | none => reply p .notFound .empty s
    | some h => k r h

/-- The two tests of a train request (R120). -/
def atTrain (p : Port) (route : Nat) (s : State) (k : RouteId → State) : State :=
  if s.mode = .cold then reply p .notActive .empty s else
  match routeOf? route with
  | none => reply p .badArg .empty s
  | some r => k r

/-! ## Picking -/

/-- BEGIN_PICK's own tests and effect (R124). -/
def beginPick (p : Port) (route : Nat) (lap : Lap) (s : State) : State :=
  if s.mode = .cold then reply p .notActive .empty s else
  atManifest p route lap s fun r h =>
    let b := s.buffer r h
    if b.state = .offered then
      reply p .ok (.lineCount b.lines.length) (s.modBuffer r h fun b => { b with state := .picking })
    else reply p .wrongState .empty s

/-- BEGIN_PICK (R124). -/
def execBeginPick (p : Port) (route : Nat) (lap : Lap) (s : State) : Host.Outcome State Fault Refusal :=
  takeRequest p .beginPick s (beginPick p route lap)

/-- A line short-picked to a number of containers: held becomes it, and 0 makes the line RETURNED (R125). -/
def ManifestLine.shortPicked (x : ManifestLine) (picked : Nat) : ManifestLine :=
  { x with held := picked, state := if picked = 0 then .returned else x.state }

/-- What a short pick of a line does to the buffer: the line, and the carried load of its size class (R125, R98). -/
def Buffer.shortPicked (b : Buffer) (n : Nat) (x : ManifestLine) (picked : Nat) : Buffer :=
  { b with
    lines := b.lines.set n (x.shortPicked picked)
    load := b.load.modify x.size (· - (x.held - picked)) }

/-- SHORT_PICK's own tests and effect, in the order of R125. -/
def shortPick (p : Port) (route : Nat) (lap : Lap) (line picked : Nat) (s : State) : State :=
  if s.mode = .cold then reply p .notActive .empty s else
  atManifest p route lap s fun r h =>
    let b := s.buffer r h
    if b.state ≠ .offered ∧ b.state ≠ .picking then reply p .wrongState .empty s else
    match b.lines[line]? with
    | none => reply p .badArg .empty s
    | some x =>
      if x.held ≤ picked then reply p .badArg .empty s else
      let s1 := s.modBuffer r h fun b => b.shortPicked line x picked
      reply p .ok (.held picked)
        ((s1.returnLine x (x.held - picked) .urgent).tellReturned r b.lap .shortPick 1)

/-- SHORT_PICK (R125). -/
def execShortPick (p : Port) (route : Nat) (lap : Lap) (line picked : Nat) (s : State) :
    Host.Outcome State Fault Refusal :=
  takeRequest p .shortPick s (shortPick p route lap line picked)

/-- LOAD_CONFIRM's own tests and effect (R126). -/
def loadConfirm (p : Port) (route : Nat) (lap : Lap) (s : State) : State :=
  if s.mode = .cold then reply p .notActive .empty s else
  atManifest p route lap s fun r h =>
    let b := s.buffer r h
    if b.state = .offered ∨ b.state = .picking then
      reply p .ok (.load b.load) (s.modBuffer r h fun b => { b with state := .loaded })
    else reply p .wrongState .empty s

/-- LOAD_CONFIRM (R126). -/
def execLoadConfirm (p : Port) (route : Nat) (lap : Lap) (s : State) : Host.Outcome State Fault Refusal :=
  takeRequest p .loadConfirm s (loadConfirm p route lap)

/-- CANCEL_MANIFEST's own tests and effect (R127), taken in every mode (R120). -/
def cancelManifest (p : Port) (route : Nat) (lap : Lap) (s : State) : State :=
  atManifest p route lap s fun r h =>
    let b := s.buffer r h
    if b.state = .onRoute then reply p .wrongState .empty s else
    let back := s.backLines r h fun _ => true
    let s1 := (s.handBack r h (fun _ => true) asSelected).tellReturned r b.lap .cancel back.length
    reply p .ok (.manifestCancelled back.length (binsBack back)) (s1.modRoute r fun x => x.freed h)

/-- CANCEL_MANIFEST (R127). -/
def execCancelManifest (p : Port) (route : Nat) (lap : Lap) (s : State) : Host.Outcome State Fault Refusal :=
  takeRequest p .cancelManifest s (cancelManifest p route lap)

/-! ## The lap -/

/-- DEPART's own tests and effect (R128). -/
def depart (p : Port) (route : Nat) (s : State) : State :=
  atTrain p route s fun r =>
    if (s.manifestIn r .onRoute).isSome then reply p .trainBusy .empty s else
    match s.manifestIn r .loaded with
    | none => reply p .notLoaded .empty s
    | some h =>
      let b := s.buffer r h
      let stops := (s.route r).cfg.stops
      let s1 := s.modBuffer r h fun b => { b with state := .onRoute, stops := some stops }
      reply p .ok (.departed b.lap b.lines.length stops.length)
        (s1.modRoute r fun x => { x with pointer := 0, current := none })

/-- DEPART (R128). -/
def execDepart (p : Port) (route : Nat) (s : State) : Host.Outcome State Fault Refusal :=
  takeRequest p .depart s (depart p route)

/-- The outcome of an arrival's search (R129). -/
inductive Arrival where
  | found (k : Nat)
  | behind
  | unknown
deriving DecidableEq, Repr

/-- The search of a departure stop list from the pointer on (R129). -/
def findStop (stops : List Byte) (pointer : Nat) (stopId : Byte) : Arrival :=
  match (stops.drop pointer).findIdx? (· == stopId) with
  | some j => .found (pointer + j)
  | none => if (stops.take pointer).contains stopId then .behind else .unknown

/-- The lines an arrival at index k returns: those of the current stop, and of every index from the pointer to k − 1
(R130). -/
def leftBehind (current : Option Nat) (pointer k : Nat) (x : ManifestLine) : Bool :=
  current == some x.stop || decide (pointer ≤ x.stop ∧ x.stop < k)

/-- A line is open at a stop: it stands at that stop and is still PLANNED (R131). -/
def ManifestLine.openAt (stop : Nat) (x : ManifestLine) : Bool := x.stop == stop && x.state == .planned

/-- ARRIVE's own tests and effect (R129, R130). -/
def arrive (p : Port) (route : Nat) (stopId : Byte) (s : State) : State :=
  atTrain p route s fun r =>
    match s.manifestIn r .onRoute with
    | none => reply p .wrongState .empty s
    | some h =>
      let x := s.route r
      let b := s.buffer r h
      match findStop (b.stops.getD []) x.pointer stopId with
      | .behind => reply p .behind .empty s
      | .unknown => reply p .unknownStop .empty s
      | .found k =>
        let sel := leftBehind x.current x.pointer k
        let n := (s.backLines r h sel).length
        let s1 := (s.handBack r h sel asUrgent).tellReturned r b.lap .skipped n
        let s2 := s1.modRoute r fun x => { x with current := some k, pointer := k + 1 }
        reply p .ok (.arrived k n ((s2.buffer r h).lines.countP (·.openAt k))) s2

/-- ARRIVE (R129). -/
def execArrive (p : Port) (route : Nat) (stopId : Byte) (s : State) : Host.Outcome State Fault Refusal :=
  takeRequest p .arrive s (arrive p route stopId)

/-- A drop hits a line: part numbers agree under the mask, and for a rack the qualifier is its first seq (R132). -/
def ManifestLine.hitBy (mask : PartNo) (label : DropLabel) (x : ManifestLine) : Bool :=
  (label.part &&& mask == x.part &&& mask) &&
  match x.load with
  | .bin _ => true
  | .rack first _ _ => label.qualifier == first

/-- The open lines of a stop with their line numbers, in manifest order (R131). -/
def openLines (lines : List ManifestLine) (stop : Nat) : List (Nat × ManifestLine) :=
  (numbered lines).filter fun e => e.2.openAt stop

/-- The open line a drop hits: FIRST tries the first open line only, ANY every one in order (R131). -/
def dropHit (m : MatchMode) (mask : PartNo) (label : DropLabel) (tried : List (Nat × ManifestLine)) :
    Option (Nat × ManifestLine) :=
  match m with
  | .first => (tried.take 1).find? fun e => e.2.hitBy mask label
  | .any => tried.find? fun e => e.2.hitBy mask label

/-- A line with one more container delivered; it becomes DELIVERED when delivered equals held (R133, R121). -/
def ManifestLine.dropped (x : ManifestLine) : ManifestLine :=
  { x with delivered := x.delivered + 1, state := if x.delivered + 1 = x.held then .delivered else x.state }

/-- The delivery is handed on by the line's kind (R133). -/
def State.deliverLine (s : State) (x : ManifestLine) : State :=
  match x.load with
  | .bin _ => s.deliverBin x.slot
  | .rack _ last _ => s.deliverRack x.slot last

/-- DROP's own tests and effect (R131 to R134). -/
def drop (p : Port) (route : Nat) (label : DropLabel) (s : State) : State :=
  atTrain p route s fun r =>
    match s.manifestIn r .onRoute with
    | none => reply p .wrongState .empty s
    | some h =>
      let x := s.route r
      match x.current with
      | none => reply p .wrongStop .empty s
      | some stop =>
        let tried := openLines (s.buffer r h).lines stop
        match dropHit x.cfg.matchMode x.cfg.mask label tried with
        | none =>
          reply p .mismatch (.missed stop tried.length)
            (s.modRoute r fun x => { x with mismatches := bump x.mismatches })
        | some (n, y) =>
          let z := y.dropped
          let s1 := s.modBuffer r h fun b => { b with lines := b.lines.set n z }
          reply p .ok (.dropped n z.slot z.delivered z.held z.state) (s1.deliverLine z)

/-- DROP (R131). -/
def execDrop (p : Port) (route : Nat) (label : DropLabel) (s : State) : Host.Outcome State Fault Refusal :=
  takeRequest p .drop s (drop p route label)

/-- LAP_END's own tests and effect (R135). -/
def lapEnd (p : Port) (route : Nat) (s : State) : State :=
  atTrain p route s fun r =>
    match s.manifestIn r .onRoute with
    | none => reply p .wrongState .empty s
    | some h =>
      let b := s.buffer r h
      let back := s.backLines r h fun _ => true
      let s1 := (s.handBack r h (fun _ => true) asUrgent).tellReturned r b.lap .lapEnd back.length
      reply p .ok (.lapEnded b.lap back.length (binsBack back)) (s1.modRoute r fun x => x.freed h)

/-- LAP_END (R135). -/
def execLapEnd (p : Port) (route : Nat) (s : State) : Host.Outcome State Fault Refusal :=
  takeRequest p .lapEnd s (lapEnd p route)

end Sys2Proof.Machine
end

