-- ==== Sys2Proof/Machine/Builder.lean ====
section
/-!
DEFINITION. The manifest builder: the preconditions, racks, bins, manifest order and the offer (R100 to R113).
-/

namespace Sys2Proof.Machine

open Sys2Proof

/-- The working state of a build: the part, the remaining capacity in each size class, and the lines in selection order
(R104). It is gone when the build ends (R118). -/
structure BuildWork where
  st : State
  room : PerSize
  lines : List ManifestLine
deriving DecidableEq, Repr

/-- The most lines a manifest holds (R98). -/
def maxLines : Nat := 32

/-- A slot has an undelivered rack line in a live manifest of any route (R106). -/
def State.hasRackOut (s : State) (i : SlotId) : Bool :=
  routeIds.any fun r => (s.route r).liveHalves.any fun h =>
    (s.buffer r h).lines.any fun x => x.rackOf i && x.state == .planned

/-- The builder considers a slot for a rack: SEQUENCED and ACTIVE (R105). -/
def Slot.rackable (x : Slot) : Bool := x.cfg.kind == .sequenced && x.cfg.status == .active

/-- A new manifest line for a slot: its live part number and size class, the stop, held equal to planned, delivered 0,
PLANNED (R99, R107, R110). -/
def State.newLine (s : State) (i : SlotId) (stop : Nat) (load : LineLoad) (n : Nat) : ManifestLine :=
  let c := (s.slot i).cfg
  { load := load, slot := i, part := c.part, size := c.size, stop := stop, planned := n, held := n, delivered := 0,
    state := .planned }

/-- Appends a line and charges its containers against the room of its size class (R107, R110). -/
def BuildWork.add (w : BuildWork) (x : ManifestLine) : BuildWork :=
  { w with lines := w.lines ++ [x], room := w.room.modify x.size (· - x.planned) }

/-- Considers one slot for a rack, by the five tests of R105. -/
def considerRack (r : RouteId) (w : BuildWork) (i : SlotId) : BuildWork :=
  match w.st.mapSlot i with
  | none => w
  | some (route, stop) =>
    if route ≠ r ∨ w.st.hasRackOut i then w
    else
      match w.st.eligibleRack i with
      | none => w
      | some k =>
        if w.room.get (w.st.slot i).cfg.size = 0 ∨ maxLines ≤ w.lines.length then w
        else
          let x := w.st.newLine i stop (.rack k.first k.last k.positions) 1
          { w.add x with st := w.st.coverThrough i k.last }

/-- A demand line is a candidate of a build of route r (R108). -/
def State.candidate (s : State) (r : RouteId) (d : DemandLine) : Bool :=
  let x := s.slot d.slot
  (s.mapSlot d.slot).any (·.1 == r) && x.cfg.kind == .kanban && x.cfg.status == .active && !x.withheld

/-- The builder's order among candidates by effective rank, then age; equal ones keep their queue order (R109). -/
def servedBefore (ageStep : Nat) (now : Time) (x y : DemandLine) : Bool :=
  decide (x.effectiveRank ageStep < y.effectiveRank ageStep) ||
  (x.effectiveRank ageStep == y.effectiveRank ageStep && decide ((now - y.created).toNat ≤ (now - x.created).toNat))

/-- The candidates of a build in the builder's order (R108, R109). The sort is stable. -/
def State.candidates (s : State) (r : RouteId) : List DemandLine :=
  (s.demand.lines.filter (s.candidate r)).insertionSort
    fun x y => servedBefore s.demand.ageStep s.plant x y = true

/-- Considers one candidate: k containers are assigned where there is room (R110). -/
def considerBin (w : BuildWork) (d : DemandLine) : BuildWork :=
  let k := min d.containers (w.room.get (w.st.slot d.slot).cfg.size)
  if k = 0 ∨ maxLines ≤ w.lines.length then w
  else
    match w.st.mapSlot d.slot with
    | none => w
    | some (_, stop) =>
      let x := w.st.newLine d.slot stop (.bin d.cls) k
      { w.add x with st := w.st.takeOpen d.slot k }

/-- A line of one of the given slots has its passes increased by 1, stopping at 255 (R51). -/
def DemandLine.passedOver (slots : List SlotId) (x : DemandLine) : DemandLine :=
  if slots.contains x.slot then { x with passes := min (x.passes + 1) 255 } else x

/-- The candidates that still hold containers are passed over (R51). -/
def State.countPasses (s : State) (slots : List SlotId) : State :=
  s.modDemand fun d => { d with lines := d.lines.map (DemandLine.passedOver slots) }

/-- Manifest order: ascending stop, and within one stop the order of selection (R100). The sort is stable. -/
def manifestOrder (lines : List ManifestLine) : List ManifestLine :=
  lines.insertionSort fun x y => x.stop ≤ y.stop

/-- The buffer a build fills: the lower-numbered FREE one (R104). -/
def Route.freeHalf (x : Route) : Option Half :=
  if x.buffers.lower.live = false then some .lower
  else if x.buffers.upper.live = false then some .upper
  else none

/-- A buffer filled with a manifest, which is the newer of two live ones (R97, R98, R111). -/
def Route.filled (x : Route) (h : Half) (b : Buffer) : Route :=
  { x with
    buffers := x.buffers.modify h fun _ => b
    older := if (x.buffers.get h.other).live then h.other else h }

/-- The racks of a build of route r, then its bins (R105 to R110). -/
def State.selectLoad (s : State) (r : RouteId) : BuildWork :=
  let racks := (s.slotsWhere Slot.rackable).foldl (considerRack r) ⟨s, (s.route r).cfg.caps, []⟩
  let chosen := racks.st.candidates r
  let bins := chosen.foldl considerBin racks
  { bins with st := bins.st.countPasses (chosen.map (·.slot)) }

/-- The manifest a build offers (R104, R111). -/
def State.offered (s : State) (r : RouteId) (lines : List ManifestLine) : Buffer :=
  { state := .offered
    lap := (s.route r).lap
    builtAt := s.plant
    seen := 0
    overdue := false
    load := carriedLoad lines
    lines := manifestOrder lines
    stops := none }

/-- The build into a FREE buffer: racks, bins, manifest order, OFFERED, PICK_READY (R104 to R113). -/
def State.buildInto (s : State) (r : RouteId) (h : Half) : State :=
  let w := s.selectLoad r
  (w.st.modRoute r fun x => x.filled h (s.offered r w.lines)).raise (.pickReady r (s.route r).lap w.lines.length)

/-- The builder at a build point: the lap is held (R102), missed (R103), or built (R104). -/
def State.build (s : State) (r : RouteId) : State :=
  let x := s.route r
  if x.hold then s.modRoute r fun x => { x with heldCount := bump x.heldCount }
  else
    match x.freeHalf with
    | some h => s.buildInto r h
    | none =>
      (s.modRoute r fun x => { x with missedCount := bump x.missedCount }).raise
        (.lapMissed r x.lap (x.buffers.get x.older).state)

end Sys2Proof.Machine
end

