-- ==== Sys2Proof/Machine/Clock.lean ====
section
/-!
DEFINITION. The clock unit and the route timer: gates and edges (R77 to R80), the end of a decisecond (R75, R76, R83), the
wrap, the build point, the departure point and the skipped point (R84 to R90), and the route controls ACK_LATE, PRESET_LATE,
SET_HOLD and SET_GATE (R80, R91 to R93).

The end of a decisecond counts each route and leaves in `due` the event the count produced; the event is a command of its own
(log 7).
-/

namespace Sys2Proof.Machine

open Sys2Proof

/-! ## Gates -/

/-- The gate state a SET_GATE writing a mode sets (R80). -/
def gateOpenAt (mode : GateMode) (run : Level) : Bool :=
  match mode with
  | .follow => run == .high
  | .startOnce => false
  | .stopOnce => true
  | .opened => true
  | .held => false

/-- What writing a gate mode does: the mode, the latch armed, the gate state (R80). -/
def LineClock.write (x : LineClock) (mode : GateMode) : LineClock :=
  { x with mode := mode, fired := false, isOpen := gateOpenAt mode x.run }

/-- What an edge to a new level does to a gate, by mode and latch (R78, R79). -/
def LineClock.edge (x : LineClock) (level : Level) : LineClock :=
  let y := { x with run := level }
  match x.mode with
  | .follow => { y with isOpen := level == .high }
  | .startOnce => if x.fired = false ∧ level = .high then { y with isOpen := true, fired := true } else y
  | .stopOnce => if x.fired = false ∧ level = .low then { y with isOpen := false, fired := true } else y
  | .opened | .held => y

/-- RUN_EDGE: a change of a RUN input's level, in every device mode (R77). A command that names the level the input already
has is no edge. RUN is an input, so its level is followed while RESET_N is low too, and the gate, then in FOLLOW, with it
(R81; log 14). -/
def execRunEdge (l : Line) (level : Level) (s : State) : Host.Outcome State Fault Refusal :=
  .next (if (s.clock l).run = level then s else s.modClock l fun x => x.edge level)

/-- SET_GATE's own tests and effect (R80). -/
def setGate (p : Port) (line : Option Line) (mode : Option GateMode) (s : State) : State :=
  match line, mode with
  | some l, some m =>
    let x := (s.clock l).write m
    reply p .ok (.gate x.mode x.isOpen x.fired) (s.modClock l fun x => x.write m)
  | _, _ => reply p .badArg .empty s

/-- SET_GATE (R80). -/
def execSetGate (p : Port) (line : Option Line) (mode : Option GateMode) (s : State) : Host.Outcome State Fault Refusal :=
  takeRequest p .setGate s (setGate p line mode)

/-! ## The route counter -/

/-- The event of a route whose C reaches a value by counting: a skipped point where A equals B, else a build point at A or a
departure point at B, each below P (R85, R86, R89). -/
def RouteTiming.eventAt (t : RouteTiming) (c : Nat) : Option RouteEvent :=
  if t.buildAt = t.departAt then
    if c = t.buildAt ∧ t.buildAt < t.period then some .skipped else none
  else if c = t.buildAt ∧ t.buildAt < t.period then some .build
  else if c = t.departAt ∧ t.departAt < t.period then some .departure
  else none

/-- One decisecond of a route's clock: an enabled route counts, or its wrap falls due (R83). -/
def Route.count (x : Route) : Route :=
  let t := x.cfg.timing
  if t.enabled then
    if x.c + 1 < t.period then { x with c := x.c + 1, due := t.eventAt (x.c + 1) } else { x with due := some .wrap }
  else x

/-- A route takes up a timing: C becomes 0 where it is not below the new P (R94). -/
def Route.takeUp (x : Route) (t : RouteTiming) : Route :=
  { x with cfg := { x.cfg with timing := t }, next := none, c := if x.c < t.period then x.c else 0 }

/-- A route's wrap: C becomes 0, the lap number increases, pending timing is taken up, and the points at C = 0 are judged
unless the route is now disabled (R84). -/
def Route.wrapped (x : Route) : Route :=
  let y := { x with c := 0, lap := x.lap + 1 }
  let z := match y.next with
    | none => y
    | some t => y.takeUp t
  { z with due := if z.cfg.timing.enabled then z.cfg.timing.eventAt 0 else none }

/-- The build point: the queue re-tests its uncovered flags, then the builder runs (R85). -/
def State.buildPoint (s : State) (r : RouteId) : State :=
  (s.retestUncovered.build r).modRoute r fun x => { x with due := none }

/-- The route goes late for a manifest: nothing if the late flag is set; otherwise the flag, the counter and LATE (R90). -/
def State.goLate (s : State) (r : RouteId) (b : Buffer) : State :=
  if (s.route r).late then s
  else (s.modRoute r fun x => { x with late := true, lateCount := bump x.lateCount }).raise (.late r b.lap b.state)

/-- A manifest is reported overdue: its flag, the route's counter and OVERDUE (R87). -/
def State.goOverdue (s : State) (r : RouteId) (h : Half) : State :=
  ((s.modBuffer r h fun b => { b with overdue := true }).modRoute r
    fun x => { x with overdueCount := bump x.overdueCount }).raise
    (.overdue r (s.buffer r h).lap (s.route r).pointer)

/-- One live manifest at a departure point: its count rises, stopping at 2, and it is judged (R86). -/
def State.judgeDeparture (r : RouteId) (s : State) (h : Half) : State :=
  let s1 := s.modBuffer r h fun b => { b with seen := min (b.seen + 1) 2 }
  let b := s1.buffer r h
  if b.state = .onRoute then
    if b.seen = 2 ∧ b.overdue = false then s1.goOverdue r h else s1
  else if b.seen = 1 then s1.goLate r b else s1

/-- The departure point: each live manifest of the route, oldest first (R86). -/
def State.departurePoint (s : State) (r : RouteId) : State :=
  ((s.route r).liveHalves.foldl (State.judgeDeparture r) s).modRoute r fun x => { x with due := none }

/-- The skipped point: the laps-skipped counter, and nothing more (R89). -/
def State.skippedPoint (s : State) (r : RouteId) : State :=
  s.modRoute r fun x => { x with skippedCount := bump x.skippedCount, due := none }

/-- The wrap (R84). -/
def State.wrapPoint (s : State) (r : RouteId) : State := s.modRoute r Route.wrapped

/-- Takes the event a route has due, if any. -/
def State.takeDue (s : State) (r : RouteId) : State :=
  match (s.route r).due with
  | none => s
  | some .wrap => s.wrapPoint r
  | some .build => s.buildPoint r
  | some .departure => s.departurePoint r
  | some .skipped => s.skippedPoint r

/-- Takes whatever a route still has due: an event, and the point a wrap produces. -/
def State.settleRoute (s : State) (r : RouteId) : State := (s.takeDue r).takeDue r

/-- Takes whatever every route still has due, in ascending route number (log 8). -/
def State.settleRoutes (s : State) : State := routeIds.foldl State.settleRoute s

/-- A clock's decisecond ends with a plant decisecond: always for plant time, for a line while its gate is open (R76). -/
def State.ticks (s : State) : ClockSource → Bool
  | .plant => true
  | .line l => (s.clock l).isOpen

/-- The count of every route whose clock ticks (R76, R83). -/
def State.countRoutes (s : State) : State :=
  { s with routes := mapTable (fun x => if s.ticks x.cfg.timing.source then x.count else x) s.routes }

/-- The clocks at the end of a decisecond: plant time, and each line time whose gate is open (R75, R76). -/
def State.tickClocks (s : State) : State :=
  { s with
    plant := s.plant + 1
    clocks := s.clocks.map fun x => { x with time := if x.isOpen then x.time + 1 else x.time } }

/-- The end of a decisecond, in ACTIVE only: what the last one still has due is taken first, then the clocks advance and the
routes count (R75, R76, R83). -/
def State.decisecond (s : State) : State :=
  if s.mode = .active then s.settleRoutes.tickClocks.countRoutes else s

/-- DECISECOND_END (R75). -/
def execDecisecondEnd (s : State) : Host.Outcome State Fault Refusal := takeEvent s State.decisecond

/-- A route event that is taken when it is due, and does not occur otherwise (log 7). -/
def State.whenDue (s : State) (r : RouteId) (e : RouteEvent) (k : State → RouteId → State) : State :=
  if (s.route r).due = some e then k s r else s

/-- WRAP (R84). -/
def execWrap (r : RouteId) (s : State) : Host.Outcome State Fault Refusal :=
  takeEvent s fun s => s.whenDue r .wrap State.wrapPoint

/-- BUILD_POINT (R85). -/
def execBuildPoint (r : RouteId) (s : State) : Host.Outcome State Fault Refusal :=
  takeEvent s fun s => s.whenDue r .build State.buildPoint

/-- DEPARTURE_POINT (R86). -/
def execDeparturePoint (r : RouteId) (s : State) : Host.Outcome State Fault Refusal :=
  takeEvent s fun s => s.whenDue r .departure State.departurePoint

/-- SKIPPED_POINT (R89). -/
def execSkippedPoint (r : RouteId) (s : State) : Host.Outcome State Fault Refusal :=
  takeEvent s fun s => s.whenDue r .skipped State.skippedPoint

/-! ## Route controls -/

/-- ACK_LATE's own tests and effect; from SP it is refused in COLD (R91). -/
def ackLate (p : Port) (route : Nat) (s : State) : State :=
  if p = .sp ∧ s.mode = .cold then reply p .notActive .empty s else
  match routeOf? route with
  | none => reply p .badArg .empty s
  | some r => reply p .ok (.was (s.route r).late) (s.modRoute r fun x => { x with late := false })

/-- ACK_LATE (R91). -/
def execAckLate (p : Port) (route : Nat) (s : State) : Host.Outcome State Fault Refusal :=
  takeRequest p .ackLate s (ackLate p route)

/-- PRESET_LATE's own tests and effect (R92). -/
def presetLate (p : Port) (route : Nat) (s : State) : State :=
  match routeOf? route with
  | none => reply p .badArg .empty s
  | some r => reply p .ok (.was (s.route r).late) (s.modRoute r fun x => { x with late := true })

/-- PRESET_LATE (R92). -/
def execPresetLate (p : Port) (route : Nat) (s : State) : Host.Outcome State Fault Refusal :=
  takeRequest p .presetLate s (presetLate p route)

/-- SET_HOLD's own tests and effect (R93). -/
def setHold (p : Port) (route : Nat) (on : Bool) (s : State) : State :=
  match routeOf? route with
  | none => reply p .badArg .empty s
  | some r => reply p .ok (.was (s.route r).hold) (s.modRoute r fun x => { x with hold := on })

/-- SET_HOLD (R93). -/
def execSetHold (p : Port) (route : Nat) (on : Bool) (s : State) : Host.Outcome State Fault Refusal :=
  takeRequest p .setHold s (setHold p route on)

end Sys2Proof.Machine
end

