-- ==== Sys2Proof/Machine/Sensors.lean ====
section
/-!
DEFINITION. The sensor checker: the comparison, the disagreement count, declaring a discrepancy, the resync, the snapshot and
CLEAR_DISCREPANCY (R143 to R152).
-/

namespace Sys2Proof.Machine

open Sys2Proof

/-- The comparison of a checked slot's sensor with its estimate; `none` is agreement (R145). -/
def Slot.compare (x : Slot) (sensor : SensorState) : Option DiscKind :=
  match sensor with
  | .uncovered => if (x.cfg.eye + x.cfg.band) * 1000 < x.oh then some .under else none
  | .covered => if x.cfg.band ≤ x.cfg.eye ∧ x.oh < (x.cfg.eye - x.cfg.band) * 1000 then some .over else none

/-- The disagreement kind and count move after a comparison (R146). -/
def Slot.moved (x : Slot) (result : Option DiscKind) : Slot :=
  match result with
  | none => { x with disKind := none, disCount := 0 }
  | some k =>
    if x.disKind = some k then { x with disCount := min (x.disCount + 1) 4 }
    else { x with disKind := some k, disCount := 1 }

/-- What a resync does to a slot's record (R149). -/
def Slot.resynced (x : Slot) : Slot :=
  let oh := min (x.cfg.eye * 1000) x.cfg.fullMp
  { x with
    oh := oh
    resyncs := bump x.resyncs
    disKind := none
    disCount := 0
    short := x.short && decide (oh = 0) }

/-- The policy acts on a slot whose count has reached 4 (R147, R148). -/
def State.actPolicy (s : State) (i : SlotId) : State :=
  match (s.slot i).cfg.policy with
  | .report => s
  | .resync => (s.modSlot i Slot.resynced).evaluate i
  | .withhold => s.modSlot i fun x => { x with withheld := true }

/-- The count of a slot reaches 4 with a kind: the flag takes the kind, DISCREPANCY is raised if it was clear, and the policy
acts (R147, R148). -/
def State.reachFour (s : State) (i : SlotId) (k : DiscKind) : State :=
  let x := s.slot i
  let s1 := s.modSlot i fun x => { x with discrepant := some k }
  (if x.discrepant = none then s1.raise (.discrepancy i k x.cfg.policy) else s1).actPolicy i

/-- The working state of a snapshot: the part, and how many slots have disagreed and become DISCREPANT (R144). -/
structure SnapshotWork where
  st : State
  disagreed : Nat
  declared : Nat
deriving DecidableEq, Repr

/-- One checked slot of a snapshot: compared, moved, and acted on where the count reaches 4 (R144 to R148). -/
def checkSlot (states : Vector SensorState 32) (w : SnapshotWork) (i : SlotId) : SnapshotWork :=
  let x := w.st.slot i
  match x.cfg.sensor with
  | none => w
  | some n =>
    let result := x.compare states[n.val % 32]
    let s1 := w.st.modSlot i fun x => x.moved result
    match result with
    | none => { w with st := s1 }
    | some k =>
      if x.disCount = 3 ∧ x.disKind = some k then
        { st := s1.reachFour i k
          disagreed := w.disagreed + 1
          declared := if x.discrepant = none then w.declared + 1 else w.declared }
      else { w with st := s1, disagreed := w.disagreed + 1 }

/-- A slot is checked by a snapshot of a bank (R144). -/
def Slot.checkedBy (bank : Nat) (x : Slot) : Bool :=
  x.cfg.kind == .kanban && x.cfg.running && x.cfg.sensor.any fun n => n.val / 32 == bank

/-- SENSOR_SNAPSHOT's own tests and effect (R144). -/
def sensorSnapshot (p : Port) (bank : Nat) (states : Vector SensorState 32) (s : State) : State :=
  if s.mode ≠ .active then reply p .notActive .empty s
  else if 1 < bank then reply p .badArg .empty s
  else
    let checked := s.slotsWhere (Slot.checkedBy bank)
    let w := checked.foldl (checkSlot states) ⟨s, 0, 0⟩
    reply p .ok (.snapshot checked.length w.disagreed w.declared) w.st

/-- SENSOR_SNAPSHOT (R144). -/
def execSensorSnapshot (p : Port) (bank : Nat) (states : Vector SensorState 32) (s : State) :
    Host.Outcome State Fault Refusal :=
  takeRequest p .sensorSnapshot s (sensorSnapshot p bank states)

/-- CLEAR_DISCREPANCY's own tests and effect (R152). -/
def clearDiscrepancy (p : Port) (slot : Nat) (s : State) : State :=
  if s.mode = .cold then reply p .notActive .empty s else
  match slotOf? slot with
  | none => reply p .badArg .empty s
  | some i =>
    let x := s.slot i
    if 0 < x.disCount then reply p .stillPresent (.disagreement x.disKind x.disCount) s
    else reply p .ok (.discrepancyCleared x.discrepant.isSome x.withheld)
      ((s.modSlot i fun x => { x with discrepant := none, withheld := false }).evaluate i)

/-- CLEAR_DISCREPANCY (R152). -/
def execClearDiscrepancy (p : Port) (slot : Nat) (s : State) : Host.Outcome State Fault Refusal :=
  takeRequest p .clearDiscrepancy s (clearDiscrepancy p slot)

end Sys2Proof.Machine
end

