-- ==== Sys2Proof/Machine/Staging.lean ====
section
/-!
DEFINITION. The staging unit: writing and reading the image (R155, R156), the two applies (R157, R158), what an apply does
(R159 to R162), and ADVANCE, which may take one (R30 to R33).
-/

namespace Sys2Proof.Machine

open Sys2Proof

/-! ## Writing and reading the image -/

/-- Changes the staging image. -/
def State.modImage (s : State) (f : Image → Image) : State := { s with image := f s.image }

/-- The staging unit is ARMED (R155). -/
def State.isArmed (s : State) : Bool := s.applyState != .idle

/-- STAGE_SLOT's own tests and effect (R156). -/
def stageSlot (p : Port) (slot : Nat) (op : StageOp SlotFields) (s : State) : State :=
  match op with
  | .read =>
    match slotOf? slot with
    | none => reply p .badArg .empty s
    | some i => reply p .ok (.stagedSlot s.image.slots[i]) s
  | .write f =>
    if s.isArmed then reply p .stageLocked .empty s else
    match slotOf? slot, stagedSlot? f with
    | some i, some c => reply p .ok (.stagedSlot c) (s.modImage fun m => { m with slots := m.slots.set i c })
    | _, _ => reply p .badArg .empty s

/-- STAGE_SLOT (R156). -/
def execStageSlot (p : Port) (slot : Nat) (op : StageOp SlotFields) (s : State) : Host.Outcome State Fault Refusal :=
  takeRequest p .stageSlot s (stageSlot p slot op)

/-- The row of a line's staged usage that a STAGE_USAGE names: the row of a variant 1..31, or the allowances (R10, R156). -/
inductive StagedRow where
  | entries (v : Variant)
  | allowances
deriving DecidableEq, Repr

/-- The row a STAGE_USAGE names, none for variant 0 or above 31 (R10). -/
def stagedRow? : UsageRow → Option StagedRow
  | .allowance => some .allowances
  | .variant n => if n = 0 then none else (variantOf? n).map .entries

/-- A row's sixteen staged values. -/
def LineUsage.row (u : LineUsage) : StagedRow → Vector Nat 16
  | .entries v => u.q[v]
  | .allowances => u.allowance

/-- Writes values into consecutive places from the k-th on. -/
def overlay (xs : Vector Nat 16) (k : Nat) : List Nat → Vector Nat 16
  | [] => xs
  | v :: vs => overlay (if h : k < 16 then xs.set k v else xs) (k + 1) vs

/-- Writes values into a row from a first group on. -/
def LineUsage.write (u : LineUsage) (r : StagedRow) (first : Nat) (values : List Nat) : LineUsage :=
  match r with
  | .entries v => { u with q := u.q.set v (overlay u.q[v] first values) }
  | .allowances => { u with allowance := overlay u.allowance first values }

/-- The most a value of a row may be (R10, R11). -/
def StagedRow.bound : StagedRow → Nat
  | .entries _ => 15
  | .allowances => 250

/-- STAGE_USAGE's own tests and effect (R156). A WRITE with no values, or with more than reach group 15, has a payload of the
wrong length, which is tested before the request's own tests (R166; log 10). How many values a READ answers is free
(log 9). -/
def stageUsage (p : Port) (line : Option Line) (row : UsageRow) (first : Nat) (op : StageOp (List Nat)) (s : State) :
    State :=
  match op with
  | .read =>
    match line, stagedRow? row, groupOf? first with
    | some l, some r, some g =>
      let n := 1 + Config.usageReadCount l row first % (16 - g.val)
      reply p .ok (.stagedUsage (((s.image.usage.get l).row r).toList.drop g.val |>.take n)) s
    | _, _, _ => reply p .badArg .empty s
  | .write values =>
    if values.length = 0 ∨ 16 < first + values.length then reply p .badArg .empty s
    else if s.isArmed then reply p .stageLocked .empty s else
    match line, stagedRow? row, groupOf? first with
    | some l, some r, some g =>
      let held := values.map (min · r.bound)
      reply p .ok (.stagedUsage held)
        (s.modImage fun m => { m with usage := m.usage.modify l fun u => u.write r g.val held })
    | _, _, _ => reply p .badArg .empty s

/-- STAGE_USAGE (R156). -/
def execStageUsage (p : Port) (line : Option Line) (row : UsageRow) (first : Nat) (op : StageOp (List Nat)) (s : State) :
    Host.Outcome State Fault Refusal :=
  takeRequest p .stageUsage s (stageUsage p line row first op)

/-- STAGE_ROUTE's own tests and effect (R82, R101, R119, R156). -/
def stageRoute (p : Port) (route : Nat) (op : StageOp RouteFields) (s : State) : State :=
  match op with
  | .read =>
    match routeOf? route with
    | none => reply p .badArg .empty s
    | some r => reply p .ok (.stagedRoute s.image.routes[r]) s
  | .write f =>
    if s.isArmed then reply p .stageLocked .empty s else
    match routeOf? route, stagedRoute? f with
    | some r, some c => reply p .ok (.stagedRoute c) (s.modImage fun m => { m with routes := m.routes.set r c })
    | _, _ => reply p .badArg .empty s

/-- STAGE_ROUTE (R82). -/
def execStageRoute (p : Port) (route : Nat) (op : StageOp RouteFields) (s : State) : Host.Outcome State Fault Refusal :=
  takeRequest p .stageRoute s (stageRoute p route op)

/-- A coverage window's number, none above 11 (R70). -/
def windowOf? (n : Nat) : Option (Fin 12) := if h : n < 12 then some ⟨n, h⟩ else none

/-- STAGE_WINDOW's own tests and effect (R70, R156). -/
def stageWindow (p : Port) (index : Nat) (op : StageOp WindowFields) (s : State) : State :=
  match op with
  | .read =>
    match windowOf? index with
    | none => reply p .badArg .empty s
    | some k => reply p .ok (.stagedWindow s.image.windows[k]) s
  | .write f =>
    if s.isArmed then reply p .stageLocked .empty s else
    match windowOf? index, stagedWindow? f with
    | some k, some w => reply p .ok (.stagedWindow w) (s.modImage fun m => { m with windows := m.windows.set k w })
    | _, _ => reply p .badArg .empty s

/-- STAGE_WINDOW (R70). -/
def execStageWindow (p : Port) (index : Nat) (op : StageOp WindowFields) (s : State) : Host.Outcome State Fault Refusal :=
  takeRequest p .stageWindow s (stageWindow p index op)

/-- STAGE_GLOBALS's own tests and effect (R43, R59, R156). -/
def stageGlobals (p : Port) (op : StageOp GlobalFields) (s : State) : State :=
  match op with
  | .read => reply p .ok (.stagedGlobals s.image.ageStep s.image.watermark) s
  | .write f =>
    if s.isArmed then reply p .stageLocked .empty s else
    let ageStep := min f.ageStep 7
    let watermark := clamp 1 128 f.watermark
    reply p .ok (.stagedGlobals ageStep watermark)
      (s.modImage fun m => { m with ageStep := ageStep, watermark := watermark })

/-- STAGE_GLOBALS (R156). -/
def execStageGlobals (p : Port) (op : StageOp GlobalFields) (s : State) : Host.Outcome State Fault Refusal :=
  takeRequest p .stageGlobals s (stageGlobals p op)

/-! ## What an apply does -/

/-- Step 1, globals: AGE_STEP and W are copied, and QUEUE_HIGH is armed exactly below the new W (R59, R160). -/
def State.applyGlobals (s : State) : State :=
  s.modDemand fun d => { d with
    ageStep := s.image.ageStep
    watermark := s.image.watermark
    highArmed := decide (d.lines.length < s.image.watermark) }

/-- Step 2, usage (R160). -/
def State.applyUsage (s : State) : State := { s with usage := s.image.usage }

/-- Step 3, coverage windows (R70, R160). -/
def State.applyWindows (s : State) : State := { s with coverage := s.image.windows }

/-- A route is counting: it is enabled and its C or lap number is not 0 (R94). -/
def Route.counting (x : Route) : Bool := x.cfg.timing.enabled && (x.c != 0 || x.lap != 0)

/-- A route takes its staged configuration; its timing is discarded as equal, made pending, or taken up at once (R94). -/
def Route.applied (x : Route) (c : RouteConfig) : Route :=
  let y := { x with cfg := { c with timing := x.cfg.timing } }
  if c.timing = x.cfg.timing then { y with next := none }
  else if x.counting then { y with next := some c.timing }
  else y.takeUp c.timing

/-- Step 4, routes (R94, R160). -/
def State.applyRoutes (s : State) : State :=
  routeIds.foldl (fun t r => t.modRoute r fun x => x.applied t.image.routes[r]) s

/-- A slot's staged record with the clamps of an apply (R159, R161). -/
def State.stagedConfig (s : State) (i : SlotId) : SlotConfig := s.image.slots[i].applied

/-- The slots an apply changes, ascending (R159). -/
def State.changedSlots (s : State) : List SlotId :=
  slotIds.filter fun i => s.stagedConfig i != (s.slot i).cfg

/-- The undelivered held containers of a slot's BIN lines in live manifests (R8, R162). -/
def State.binsOut (s : State) (i : SlotId) : Nat :=
  (routeIds.map fun r => ((s.route r).liveHalves.map fun h =>
    (((s.buffer r h).lines.filter (·.binOf i)).map (·.undelivered)).sum).sum).sum

/-- The sensor fields of two configurations are the same (R153). -/
def SlotConfig.sameSensor (c d : SlotConfig) : Bool :=
  c.sensor == d.sensor && c.eye == d.eye && c.band == d.band && c.policy == d.policy

/-- The adjustments of a slot whose kind is KANBAN before and after: OH, INACTIVE, MC, sensor fields (R161). -/
def State.adjustKanban (s : State) (i : SlotId) (old new : SlotConfig) : State :=
  let s1 := s.modSlot i fun x => { x with oh := min x.oh new.fullMp }
  let s2 := if new.status = .inactive ∧ old.status ≠ .inactive then s1.cancelOpen i (s1.openContainers i) else s1
  let s3 :=
    if new.mc < old.mc ∧ new.mc < (s2.slot i).ordered then s2.cancelOpen i ((s2.slot i).ordered - new.mc) else s2
  if new.sameSensor old then s3 else s3.modSlot i fun x => { x with disKind := none, disCount := 0 }

/-- A slot made SEQUENCED: its OPEN line is cancelled, its live fields are reset, its marks re-based (R162, R29). -/
def State.makeSequenced (s : State) (i : SlotId) (new : SlotConfig) : State :=
  let s1 := s.cancelOpen i (s.openContainers i)
  s1.modSlot i fun _ => { cfg := new, marks := (s1.seq new.line).rebased }

/-- A slot made KANBAN: its live fields are reset, OH from the start level, ordered from its BIN lines in live manifests
(R162). -/
def State.makeKanban (s : State) (i : SlotId) (new : SlotConfig) : State :=
  s.modSlot i fun _ => { cfg := new, oh := new.startMp, ordered := s.binsOut i }

/-- Step 5 for one changed slot: the clamped record is written to both copies, then the adjustments of R161 or R162. -/
def State.adjustSlot (s : State) (i : SlotId) : State :=
  let old := (s.slot i).cfg
  let new := s.stagedConfig i
  let s1 := (s.modSlot i fun x => { x with cfg := new }).modImage fun m => { m with slots := m.slots.set i new }
  match old.kind, new.kind with
  | .kanban, .kanban => s1.adjustKanban i old new
  | .kanban, .sequenced => s1.makeSequenced i new
  | .sequenced, .kanban => s1.makeKanban i new
  | .sequenced, .sequenced =>
    if new.line = old.line then s1 else s1.modSlot i fun x => { x with marks := (s1.seq new.line).rebased }

/-- The apply, whole and in the order of R160: globals, usage, windows, routes, slots, evaluations (none in COLD),
PLAN_APPLIED. -/
def State.applyImage (s : State) (line : Option Line) (mode : ApplyMode) (seq : SeqNo) : State :=
  let ids := s.changedSlots
  let s5 := ids.foldl State.adjustSlot s.applyGlobals.applyUsage.applyWindows.applyRoutes
  let s6 := if s.mode = .cold then s5 else ids.foldl State.evaluate s5
  s6.raise (.planApplied line seq mode ids.length)

/-- APPLY's own tests and effect (R157). AT_MARK with a line other than A or B while ARMED falls under two of R157's refusals,
and the model answers BAD_ARG (DESIGN CHOICE; log 24). -/
def applyRequest (p : Port) (mode : Option ApplyMode) (line : Option Line) (s : State) : State :=
  match mode, line with
  | none, _ => reply p .badArg .empty s
  | some .atMark, none => reply p .badArg .empty s
  | some .immediate, _ =>
    if s.isArmed then reply p .stageLocked .empty s
    else reply p .ok (.changed s.changedSlots.length) (s.applyImage none .immediate 0)
  | some .atMark, some l =>
    if s.isArmed then reply p .stageLocked .empty s
    else reply p .ok .empty { s with applyState := .armed l }

/-- APPLY (R157). -/
def execApply (p : Port) (mode : Option ApplyMode) (line : Option Line) (s : State) : Host.Outcome State Fault Refusal :=
  takeRequest p .apply s (applyRequest p mode line)

/-- CANCEL_APPLY's effect (R158). -/
def cancelApply (p : Port) (s : State) : State :=
  reply p .ok (.applyState s.applyState) { s with applyState := .idle }

/-- CANCEL_APPLY (R158). -/
def execCancelApply (p : Port) (s : State) : Host.Outcome State Fault Refusal :=
  takeRequest p .cancelApply s (cancelApply p)

/-! ## The advance -/

/-- The apply at a mark: taken when the consumed unit carries the mark and the unit is ARMED for the line (R32, R158). -/
def State.applyAtMark (s : State) (l : Line) (marked : Bool) (seq : SeqNo) : State :=
  if marked = true ∧ s.applyState = .armed l then
    { s.applyImage (some l) .atMark seq with applyState := .idle }
  else s

/-- What an accepted advance does, in the order of R32 and R33: the list and SEQ_BREAK, a marked apply, the draws, the
starvation test. -/
def State.takeAdvance (s : State) (l : Line) (seq : SeqNo) (v : Variant) (mark : Bool) : State :=
  let a := settle (s.seq l).units seq
  (((s.settleList l seq a).applyAtMark l (mark || a.marked) seq).drawLine l v seq).starveLine l v a.case seq

/-- ADVANCE's own tests and effect (R30). -/
def advance (p : Port) (line : Option Line) (seq : SeqNo) (variant : Nat) (mark : Bool) (s : State) : State :=
  if s.mode ≠ .active then reply p .notActive .empty s else
  match line, variantOf? variant with
  | some l, some v =>
    let a := settle (s.seq l).units seq
    reply p .ok (.advanced a.case a.pulled.length a.rest.length) (s.takeAdvance l seq v mark)
  | _, _ => reply p .badArg .empty s

/-- ADVANCE (R30). -/
def execAdvance (p : Port) (line : Option Line) (seq : SeqNo) (variant : Nat) (mark : Bool) (s : State) :
    Host.Outcome State Fault Refusal :=
  takeRequest p .advance s (advance p line seq variant mark)

end Sys2Proof.Machine
end

