-- ==== Sys2Proof/Machine/Modes.lean ====
section
/-!
DEFINITION. Mode control and the resets: the power-on values, the run reset, POWER_ON, RESET_N, START, STOP and RUN_RESET
(R176 to R181).
-/

namespace Sys2Proof.Machine

open Sys2Proof

/-! ## Power-on -/

/-- The power-on state under the present levels of the input pins (R180): every block's power-on values, each gate as its RUN
input stands (R81). The commands that wait are outside the part and stay (log 22). -/
def State.poweredOn (s : State) : State :=
  { State.reset with
    pending := s.pending
    resetN := s.resetN
    clocks := s.clocks.map fun x => ({ run := x.run } : LineClock).write .follow }

/-- POWER_ON (R180). -/
def execPowerOn (s : State) : Host.Outcome State Fault Refusal := .next s.poweredOn

/-- RESET_N changes level: at either change the blocks hold their power-on values, and while it is low nothing is taken
(R180). A command that names the level the pin already has changes nothing. -/
def execResetN (level : Level) (s : State) : Host.Outcome State Fault Refusal :=
  .next (if s.resetN = level then s else { s.poweredOn with resetN := level })

/-! ## The run reset -/

/-- A line's clock after a run reset: time 0, mode kept, latch armed, gate as a SET_GATE of that mode sets it (R81). -/
def LineClock.runReset (x : LineClock) : LineClock := { x.write x.mode with time := 0 }

/-- A buffer that a run reset frees (R142). -/
def Buffer.cleared (b : Buffer) : Buffer := { b with state := .free, lines := [] }

/-- A route's run state cleared, configuration and hold kept, pending timing not yet looked at (R96, R142). -/
def Route.cleared (x : Route) : Route :=
  { x with
    c := 0, lap := 0, late := false
    lateCount := 0, overdueCount := 0, heldCount := 0, missedCount := 0, skippedCount := 0
    due := none, pointer := 0, current := none, mismatches := 0
    buffers := ⟨x.buffers.lower.cleared, x.buffers.upper.cleared⟩ }

/-- A route after a run reset: cleared, and any pending timing taken up (R96). -/
def Route.runReset (x : Route) : Route :=
  match x.next with
  | none => x.cleared
  | some t => x.cleared.takeUp t

/-- A slot after a run reset: configuration kept, OH from the start level, everything else cleared (R23, R41, R154). -/
def Slot.runReset (x : Slot) : Slot :=
  { cfg := x.cfg, oh := if x.cfg.kind = .kanban then x.cfg.startMp else 0 }

/-- The demand queue after a run reset: empty, both notices armed, counters 0, the globals kept (R62). -/
def DemandQueue.runReset (d : DemandQueue) : DemandQueue :=
  { d with lines := [], highArmed := true, fullArmed := true, returnsDropped := 0, ordersRefused := 0 }

/-- A notice queue after a run reset: empty, marker clear, lost 0, mode and N kept, the line judged (R175). -/
def NoticeQueue.runReset (q : NoticeQueue) : NoticeQueue :=
  ({ q with items := [], marker := false, lost := 0 } : NoticeQueue).judge

/-- The run reset: every block's run state cleared and the plan kept (R179). -/
def State.runReset (s : State) : State :=
  { s with
    plant := 0
    clocks := s.clocks.map LineClock.runReset
    routes := mapTable Route.runReset s.routes
    slots := mapTable Slot.runReset s.slots
    seqs := ⟨{}, {}⟩
    demand := s.demand.runReset
    applyState := .idle
    ports := s.ports.map fun _ u => { u with frameErrors := 0 }
    queues := s.queues.map fun _ q => q.runReset }

/-! ## The mode requests -/

/-- Enters a mode and raises MODE_CHANGED with the previous one (R181). -/
def State.enter (s : State) (m : DeviceMode) : State :=
  ({ s with mode := m } : State).raise (.modeChanged m s.mode)

/-- The readiness test of START from COLD: a live route is enabled and a live slot is ACTIVE (R177). -/
def State.ready (s : State) : Bool :=
  routeIds.any (fun r => (s.route r).cfg.timing.enabled) && slotIds.any fun i => (s.slot i).cfg.status == .active

/-- START's effect by mode (R177). -/
def startRequest (p : Port) (s : State) : State :=
  match s.mode with
  | .cold => if s.ready then reply p .ok .empty (s.runReset.enter .active) else reply p .notReady .empty s
  | .standby => reply p .ok .empty (s.enter .active)
  | .active => reply p .ok .empty s

/-- START (R177). -/
def execStart (p : Port) (s : State) : Host.Outcome State Fault Refusal := takeRequest p .start s (startRequest p)

/-- STOP's effect by mode (R178). A decisecond that ended before STOP is counted with the points it produces, so what is
still due is taken first (log 7). -/
def stopRequest (p : Port) (s : State) : State :=
  match s.mode with
  | .cold => reply p .wrongState .empty s
  | .standby => reply p .ok .empty s
  | .active => reply p .ok .empty (s.settleRoutes.enter .standby)

/-- STOP (R178). -/
def execStop (p : Port) (s : State) : Host.Outcome State Fault Refusal := takeRequest p .stop s (stopRequest p)

/-- RUN_RESET's effect by mode (R179). -/
def runResetRequest (p : Port) (s : State) : State :=
  match s.mode with
  | .standby => reply p .ok .empty (s.runReset.enter .standby)
  | .cold | .active => reply p .wrongState .empty s

/-- RUN_RESET (R179). -/
def execRunReset (p : Port) (s : State) : Host.Outcome State Fault Refusal := takeRequest p .runReset s (runResetRequest p)

end Sys2Proof.Machine
end

