-- ==== Sys2Proof/Machine/Reads.lean ====
section
/-!
DEFINITION. The read requests and the two requests on a port's own notice queue: what each response reports (R21, R40, R61,
R73, R95, R116, R117, R137 to R139, R171, R172, R174, R182).
-/

namespace Sys2Proof.Machine

open Sys2Proof

/-- The most lines one read response lists (R61, R116, R137, R138). -/
def readLimit : Nat := 8

/-- Up to 8 numbered entries from a first number on. -/
def page {α : Type} (first : Nat) (xs : List α) : List (Nat × α) := ((numbered xs).drop first).take readLimit

/-! ## READ_STATUS -/

/-- What READ_STATUS reports of a line (R40, R81). -/
def State.lineReport (s : State) (l : Line) : LineReport :=
  let q := s.seq l
  { anchored := q.last.isSome, last := q.last, count := q.units.length, head := q.units.head?.map (·.seq),
    clock := s.clock l }

/-- READ_STATUS's report for the asking port (R174). -/
def State.statusReport (s : State) (p : Port) : StatusReport :=
  let q := s.queue p
  { mode := s.mode, applyState := s.applyState, plant := s.plant, lines := ⟨s.lineReport .a, s.lineReport .b⟩,
    queueCount := q.items.length, urgentCount := q.urgentCount, queueMode := q.mode, threshold := q.threshold,
    marker := q.marker, attn := q.attn, frameErrors := (s.port p).frameErrors, lost := q.lost }

/-- READ_STATUS's answer (R174). -/
def readStatus (p : Port) (s : State) : State := reply p .ok (.status (s.statusReport p)) s

/-- READ_STATUS (R174). -/
def execReadStatus (p : Port) (s : State) : Host.Outcome State Fault Refusal :=
  takeRequest p .readStatus s (readStatus p)

/-! ## The asking port's notice queue -/

/-- A read of n notices: the oldest leave, and an emptied queue has its marker clear (R171); the line is judged (R173). -/
def NoticeQueue.read (q : NoticeQueue) (n : Nat) : NoticeQueue :=
  let left := q.items.drop n
  ({ q with items := left, marker := q.marker && !left.isEmpty } : NoticeQueue).judge

/-- READ_NOTICES's own test and effect (R171). -/
def readNotices (p : Port) (n : Nat) (s : State) : State :=
  if n = 0 ∨ 8 < n then reply p .badArg .empty s
  else
    let q := s.queue p
    reply p .ok (.notices q.marker (q.items.drop n).length (q.items.take n)) (s.modQueue p fun q => q.read n)

/-- READ_NOTICES (R171). -/
def execReadNotices (p : Port) (n : Nat) (s : State) : Host.Outcome State Fault Refusal :=
  takeRequest p .readNotices s (readNotices p n)

/-- SET_NOTICE_MODE's own tests and effect (R172). -/
def setNoticeMode (p : Port) (mode : Option QueueMode) (n : Nat) (s : State) : State :=
  match mode with
  | none => reply p .badArg .empty s
  | some m =>
    if n = 0 ∨ 4 < n then reply p .badArg .empty s
    else
      let q := s.queue p
      reply p .ok (.noticeMode m n q.items.length q.marker)
        (s.modQueue p fun q => ({ q with mode := m, threshold := n } : NoticeQueue).judge)

/-- SET_NOTICE_MODE (R172). -/
def execSetNoticeMode (p : Port) (mode : Option QueueMode) (n : Nat) (s : State) : Host.Outcome State Fault Refusal :=
  takeRequest p .setNoticeMode s (setNoticeMode p mode n)

/-! ## READ_SLOT -/

/-- READ_SLOT's report: IP is 0 and the marks are reported for a SEQUENCED slot (R21). -/
def Slot.report (x : Slot) : SlotReport :=
  match x.cfg.kind with
  | .kanban => { slot := x, ip := x.position, marks := none }
  | .sequenced => { slot := x, ip := 0, marks := x.marks }

/-- READ_SLOT's own test and answer (R21). -/
def readSlot (p : Port) (slot : Nat) (s : State) : State :=
  match slotOf? slot with
  | none => reply p .badArg .empty s
  | some i => reply p .ok (.slot (s.slot i).report) s

/-- READ_SLOT (R21). -/
def execReadSlot (p : Port) (slot : Nat) (s : State) : Host.Outcome State Fault Refusal :=
  takeRequest p .readSlot s (readSlot p slot)

/-! ## READ_ROUTE -/

/-- A buffer's number in the pool (R97). -/
def bufferNumber (r : RouteId) : Half → Nat
  | .lower => 2 * r.val
  | .upper => 2 * r.val + 1

/-- What READ_ROUTE reports of a buffer (R117). -/
def State.bufferReport (s : State) (r : RouteId) (h : Half) : BufferReport :=
  let b := s.buffer r h
  { number := bufferNumber r h, state := b.state, lap := if b.live then some b.lap else none }

/-- READ_ROUTE's report (R73, R95, R117, R139). -/
def State.routeReport (s : State) (r : RouteId) : RouteReport :=
  let x := s.route r
  { cfg := x.cfg, next := x.next, c := x.c, lap := x.lap, late := x.late, hold := x.hold, lateCount := x.lateCount,
    overdueCount := x.overdueCount, heldCount := x.heldCount, missedCount := x.missedCount,
    skippedCount := x.skippedCount,
    diverts := (numbered s.diverts.toList).filter (·.2.route == r),
    windows := (numbered s.coverage.toList).filter (·.2.route == r),
    buffers := ⟨s.bufferReport r .lower, s.bufferReport r .upper⟩,
    older := x.liveHalves.head?.map (bufferNumber r),
    pointer := x.pointer, current := x.current, mismatches := x.mismatches }

/-- READ_ROUTE's own test and answer (R95). -/
def readRoute (p : Port) (route : Nat) (s : State) : State :=
  match routeOf? route with
  | none => reply p .badArg .empty s
  | some r => reply p .ok (.route (s.routeReport r)) s

/-- READ_ROUTE (R95). -/
def execReadRoute (p : Port) (route : Nat) (s : State) : Host.Outcome State Fault Refusal :=
  takeRequest p .readRoute s (readRoute p route)

/-! ## READ_QUEUE -/

/-- READ_QUEUE's report from a first position on (R61). -/
def State.queueReport (s : State) (first : Nat) : QueueReport :=
  let d := s.demand
  { count := d.lines.length, watermark := d.watermark, ageStep := d.ageStep, highArmed := d.highArmed,
    fullArmed := d.fullArmed, returnsDropped := d.returnsDropped, ordersRefused := d.ordersRefused,
    lines := (page first d.lines).map fun e => ⟨e.1, e.2, e.2.effectiveRank d.ageStep⟩ }

/-- READ_QUEUE's own test and answer (R61). -/
def readQueue (p : Port) (first : Nat) (s : State) : State :=
  if 127 < first then reply p .badArg .empty s else reply p .ok (.queue (s.queueReport first)) s

/-- READ_QUEUE (R61). -/
def execReadQueue (p : Port) (first : Nat) (s : State) : Host.Outcome State Fault Refusal :=
  takeRequest p .readQueue s (readQueue p first)

/-! ## READ_MANIFEST, READ_PICK_LIST, READ_STOP_LINES -/

/-- READ_MANIFEST's report (R116). -/
def State.manifestReport (s : State) (r : RouteId) (h : Half) (first : Nat) : ManifestReport :=
  let b := s.buffer r h
  { number := bufferNumber r h, route := r, lap := b.lap, builtAt := b.builtAt, state := b.state, seen := b.seen,
    overdue := b.overdue, load := b.load, lineCount := b.lines.length, hasStops := b.stops.isSome,
    lines := page first b.lines }

/-- READ_MANIFEST's own tests and answer, in the order of R116. -/
def readManifest (p : Port) (route : Nat) (lap : Lap) (first : Nat) (s : State) : State :=
  match routeOf? route with
  | none => reply p .badArg .empty s
  | some r =>
    if 31 < first then reply p .badArg .empty s else
    match s.manifest r lap with
    | none => reply p .notFound .empty s
    | some h => reply p .ok (.manifest (s.manifestReport r h first)) s

/-- READ_MANIFEST (R116). -/
def execReadManifest (p : Port) (route : Nat) (lap : Lap) (first : Nat) (s : State) : Host.Outcome State Fault Refusal :=
  takeRequest p .readManifest s (readManifest p route lap first)

/-- What the pick list gives of a line's load: its kind and, for a rack, its units (R137). -/
def LineLoad.forPick : LineLoad → PickLoad
  | .bin _ => .bin
  | .rack first last positions => .rack first last positions

/-- What READ_STOP_LINES gives of a line's load: its kind and, for a rack, its first seq (R138). -/
def LineLoad.forStop : LineLoad → StopLoad
  | .bin _ => .bin
  | .rack first _ _ => .rack first

/-- A line of the pick list, its stop id looked up in the live stop list (R137). -/
def pickLine (stops : List Byte) (e : Nat × ManifestLine) : PickLine :=
  let x := e.2
  { number := e.1, load := x.load.forPick, slot := x.slot, part := x.part, size := x.size, stop := x.stop,
    stopId := stops[x.stop]?, planned := x.planned, held := x.held, state := x.state }

/-- READ_PICK_LIST's tests and answer; the tests of R120 come before its own (R137). -/
def readPickList (p : Port) (route : Nat) (lap : Lap) (first : Nat) (s : State) : State :=
  atManifest p route lap s fun r h =>
    if 31 < first then reply p .badArg .empty s
    else
      let b := s.buffer r h
      reply p .ok (.pickList
        { state := b.state, lineCount := b.lines.length, load := b.load,
          lines := (page first b.lines).map (pickLine (s.route r).cfg.stops) }) s

/-- READ_PICK_LIST (R137). -/
def execReadPickList (p : Port) (route : Nat) (lap : Lap) (first : Nat) (s : State) : Host.Outcome State Fault Refusal :=
  takeRequest p .readPickList s (readPickList p route lap first)

/-- An open line as READ_STOP_LINES reports it (R138). -/
def stopLine (e : Nat × ManifestLine) : StopLine :=
  { number := e.1, load := e.2.load.forStop, slot := e.2.slot, part := e.2.part, held := e.2.held, delivered := e.2.delivered }

/-- READ_STOP_LINES's report of the ON_ROUTE manifest: the current stop, or the stop at the pointer marked as next
(R138). -/
def State.stopLinesReport (s : State) (r : RouteId) (h : Half) : StopLines :=
  let x := s.route r
  let b := s.buffer r h
  let stop := x.current.getD x.pointer
  let tried := openLines b.lines stop
  { lap := b.lap, pointer := x.pointer, isNext := x.current.isNone, stop := stop, stopId := (b.stops.getD [])[stop]?,
    openCount := tried.length, lines := (tried.take readLimit).map stopLine }

/-- READ_STOP_LINES's own tests and answer (R138). -/
def readStopLines (p : Port) (route : Nat) (s : State) : State :=
  match routeOf? route with
  | none => reply p .badArg .empty s
  | some r =>
    match s.manifestIn r .onRoute with
    | none => reply p .wrongState .empty s
    | some h => reply p .ok (.stopLines (s.stopLinesReport r h)) s

/-- READ_STOP_LINES (R138). -/
def execReadStopLines (p : Port) (route : Nat) (s : State) : Host.Outcome State Fault Refusal :=
  takeRequest p .readStopLines s (readStopLines p route)

/-! ## READ_COUNTERS -/

/-- READ_COUNTERS's report, with the four figures worked out at the read (R182). -/
def State.countersReport (s : State) : CountersReport :=
  { returnsDropped := s.demand.returnsDropped
    ordersRefused := s.demand.ordersRefused
    routes := routeIds.map fun r =>
      let x := s.route r
      ⟨x.lateCount, x.overdueCount, x.heldCount, x.missedCount, x.skippedCount, x.mismatches⟩
    ports := s.ports.map fun p u => ⟨u.frameErrors, (s.queue p).lost⟩
    short := (s.slotsWhere (·.short)).length
    blocked := (s.slotsWhere (·.blocked)).length
    discrepant := (s.slotsWhere (·.discrepant.isSome)).length
    withheld := (s.slotsWhere (·.withheld)).length }

/-- READ_COUNTERS's answer (R182). -/
def readCounters (p : Port) (s : State) : State := reply p .ok (.counters s.countersReport) s

/-- READ_COUNTERS (R182). -/
def execReadCounters (p : Port) (s : State) : Host.Outcome State Fault Refusal :=
  takeRequest p .readCounters s (readCounters p)

end Sys2Proof.Machine
end

