-- ==== Sys2Proof/Machine/Frames.lean ====
section
/-!
DEFINITION. The port units: receiving a frame byte by byte, handing a complete frame over, shifting a response out,
discarding a frame, and the end of a transaction (R164 to R166, 10.5).
-/

namespace Sys2Proof.Machine

open Sys2Proof

/-! ## A response's bytes -/

/-- The status codes (10.5). -/
def Status.code : Status → Byte
  | .ok => 0x00
  | .mismatch => 0x01
  | .atMax => 0x02
  | .notPermitted => 0x03
  | .notActive => 0x04
  | .badArg => 0x05
  | .wrongState => 0x06
  | .notLoaded => 0x07
  | .trainBusy => 0x08
  | .wrongStop => 0x09
  | .behind => 0x0A
  | .unknownStop => 0x0B
  | .listFull => 0x0C
  | .outOfOrder => 0x0D
  | .stageLocked => 0x0E
  | .stillPresent => 0x0F
  | .notReady => 0x10
  | .notFound => 0x11
  | .unknown => 0x12

/-- A body's payload bytes, at most 250 (R164): none for an empty body; the notice records of READ_NOTICES behind a free
header; otherwise free (log 6). -/
def Body.payload (b : Body) : List Byte :=
  match b with
  | .empty => []
  | .notices marker left items => (Config.noticesHeader marker left ++ items.flatMap Notice.record).take 250
  | other => (Config.payloadBytes other).take 250

/-- A response frame's bytes: status, length, payload (10.5). -/
def Response.bytes (f : Response) : List Byte :=
  f.status.code :: BitVec.ofNat 8 f.body.payload.length :: f.body.payload

/-- The byte a response shifts out after so many: the next of the frame, then fill (R164). -/
def Response.byteAt (f : Response) (shifted : Nat) : Byte :=
  match shifted with
  | 0 => f.status.code
  | n + 1 => (f.bytes.drop (n + 1)).head?.getD fill

/-! ## A complete frame -/

/-- A 16-bit number from two bytes, most significant first (10.5). -/
def number16 (a b : Byte) : BitVec 16 := a ++ b

/-- A 32-bit number from four bytes, most significant first (10.5). -/
def number32 (a b c d : Byte) : BitVec 32 := (a ++ b) ++ (c ++ d)

/-- A staging request's operation with its fields (R156). -/
def stageOp {α : Type} (write : Bool) (fields : α) : StageOp α := if write then .write fields else .read

/-- The request whose fields a payload spells, once its length is right. DROP has a route byte and the drop label of 10.5, and the
bytes of every other request's fields are free (log 5). -/
def commandOf (p : Port) (q : Request) (w : List Byte) : Instr :=
  let c := requestCode q
  let byteAt (k : Nat) : Byte := w.getD k 0
  match q with
  | .readStatus => .readStatus p
  | .readNotices => .readNotices p (Config.field c w 0)
  | .setNoticeMode => .setNoticeMode p (Config.field c w 0) (Config.field c w 1)
  | .readSlot => .readSlot p (Config.field c w 0)
  | .readRoute => .readRoute p (Config.field c w 0)
  | .readQueue => .readQueue p (Config.field c w 0)
  | .readManifest => .readManifest p (Config.field c w 0) (Config.field c w 1) (Config.field c w 2)
  | .announce => .announce p (Config.field c w 0) (Config.field c w 1) (Config.field c w 2) (Config.field c w 3)
  | .advance => .advance p (Config.field c w 0) (Config.field c w 1) (Config.field c w 2) (Config.field c w 3)
  | .sensorSnapshot => .sensorSnapshot p (Config.field c w 0)
      (Vector.ofFn fun k => if (Config.field c w (1 + k.val) : Bool) then .covered else .uncovered)
  | .depart => .depart p (Config.field c w 0)
  | .arrive => .arrive p (Config.field c w 0) (Config.field c w 1)
  | .drop => .drop p (byteAt 0).toNat
      ⟨number32 (byteAt 1) (byteAt 2) (byteAt 3) (byteAt 4), number16 (byteAt 5) (byteAt 6)⟩
  | .lapEnd => .lapEnd p (Config.field c w 0)
  | .readStopLines => .readStopLines p (Config.field c w 0)
  | .beginPick => .beginPick p (Config.field c w 0) (Config.field c w 1)
  | .shortPick => .shortPick p (Config.field c w 0) (Config.field c w 1) (Config.field c w 2) (Config.field c w 3)
  | .loadConfirm => .loadConfirm p (Config.field c w 0) (Config.field c w 1)
  | .ackLate => .ackLate p (Config.field c w 0)
  | .readPickList => .readPickList p (Config.field c w 0) (Config.field c w 1) (Config.field c w 2)
  | .stageSlot => .stageSlot p (Config.field c w 1) (stageOp (Config.field c w 0) {
      kind := Config.field c w 2, status := Config.field c w 3, line := Config.field c w 4, location := Config.field c w 5
      part := Config.field c w 6, group := Config.field c w 7, allowance := Config.field c w 8, size := Config.field c w 9
      cq := Config.field c w 10, mc := Config.field c w 11, rop := Config.field c w 12, start := Config.field c w 13
      sensor := Config.field c w 14, eye := Config.field c w 15, band := Config.field c w 16, policy := Config.field c w 17
      rackSize := Config.field c w 18, minLead := Config.field c w 19 })
  | .stageUsage => .stageUsage p (Config.field c w 1)
      (if (Config.field c w 2 : Bool) then .allowance else .variant (Config.field c w 3)) (Config.field c w 4)
      (stageOp (Config.field c w 0) (Config.field c w 5))
  | .stageRoute => .stageRoute p (Config.field c w 1) (stageOp (Config.field c w 0) {
      enabled := Config.field c w 2, source := Config.field c w 3, period := Config.field c w 4
      buildAt := Config.field c w 5, departAt := Config.field c w 6, capS := Config.field c w 7, capM := Config.field c w 8
      capL := Config.field c w 9, stops := Config.field c w 10, matchMode := Config.field c w 11
      mask := Config.field c w 12 })
  | .stageWindow => .stageWindow p (Config.field c w 1) (stageOp (Config.field c w 0) {
      enabled := Config.field c w 2, base := Config.field c w 3, mask := Config.field c w 4, route := Config.field c w 5
      stopBase := Config.field c w 6, spread := Config.field c w 7 })
  | .stageGlobals => .stageGlobals p (stageOp (Config.field c w 0) {
      ageStep := Config.field c w 1, watermark := Config.field c w 2 })
  | .apply => .apply p (Config.field c w 0) (Config.field c w 1)
  | .cancelApply => .cancelApply p
  | .setDivert => .setDivert p (Config.field c w 0) {
      enabled := Config.field c w 1, base := Config.field c w 2, mask := Config.field c w 3, route := Config.field c w 4
      stopBase := Config.field c w 5, spread := Config.field c w 6 }
  | .setGate => .setGate p (Config.field c w 0) (Config.field c w 1)
  | .setHold => .setHold p (Config.field c w 0) (Config.field c w 1)
  | .presetLate => .presetLate p (Config.field c w 0)
  | .topup => .topup p (Config.field c w 0) (Config.field c w 1)
  | .cancelDemand => .cancelDemand p (Config.field c w 0)
  | .cancelManifest => .cancelManifest p (Config.field c w 0) (Config.field c w 1)
  | .clearDiscrepancy => .clearDiscrepancy p (Config.field c w 0)
  | .start => .start p
  | .stop => .stop p
  | .runReset => .runReset p
  | .readCounters => .readCounters p

/-- The form a staging operation gives its payload, with the entries of a WRITE counted. -/
def stageForm {α : Type} (op : StageOp α) (entries : α → Nat) : PayloadForm :=
  match op with
  | .read => .read
  | .write f => .write (entries f)

/-- The form of a request's payload; only a staging request's varies (R156). -/
def payloadForm (i : Instr) : PayloadForm :=
  match i with
  | .stageSlot _ _ op => stageForm op fun f => if f.start.isSome then 1 else 0
  | .stageUsage _ _ _ _ op => stageForm op List.length
  | .stageRoute _ _ op => stageForm op fun f => f.stops.length
  | .stageWindow _ _ op => stageForm op fun _ => 0
  | .stageGlobals _ op => stageForm op fun _ => 0
  | .readStatus .. | .readNotices .. | .setNoticeMode .. | .readSlot .. | .readRoute .. | .readQueue .. | .readManifest ..
  | .announce .. | .advance .. | .sensorSnapshot .. | .depart .. | .arrive .. | .drop .. | .lapEnd .. | .readStopLines ..
  | .beginPick .. | .shortPick .. | .loadConfirm .. | .ackLate .. | .readPickList .. | .apply .. | .cancelApply ..
  | .setDivert .. | .setGate .. | .setHold .. | .presetLate .. | .topup .. | .cancelDemand .. | .cancelManifest ..
  | .clearDiscrepancy .. | .start .. | .stop .. | .runReset .. | .readCounters .. | .powerOn | .resetN .. | .runEdge ..
  | .decisecondEnd | .wrap .. | .buildPoint .. | .departurePoint .. | .skippedPoint .. | .frameDiscard .. | .unknown ..
  | .csNFall .. | .byteReceived .. | .transactionEnd .. => .plain

/-- The payload length that a request's fields take in a form: 0 for a request without fields, 7 for DROP, and for every other one
length in 1..60 (log 5). -/
def lengthOf (q : Request) (form : PayloadForm) : Nat :=
  match q with
  | .readStatus | .cancelApply | .start | .stop | .runReset | .readCounters => 0
  | .drop => 7
  | .readNotices | .setNoticeMode | .readSlot | .readRoute | .readQueue | .readManifest | .announce | .advance
  | .sensorSnapshot | .depart | .arrive | .lapEnd | .readStopLines | .beginPick | .shortPick | .loadConfirm | .ackLate
  | .readPickList | .stageSlot | .stageUsage | .stageRoute | .stageWindow | .stageGlobals | .apply | .setDivert | .setGate
  | .setHold | .presetLate | .topup | .cancelDemand | .cancelManifest | .clearDiscrepancy =>
    1 + Config.payloadLength (requestCode q) form % 60

/-- The request of a known code with a payload, none where the payload's length is not the one the request's fields take (R166,
test 3). -/
def readFrame (p : Port) (q : Request) (payload : List Byte) : Option Instr :=
  let i := commandOf p q payload
  if payload.length = lengthOf q (payloadForm i) then some i else none

/-- A request's owner takes it (R166): its own tests and effect. A command that is no request changes nothing. -/
def takeOwner (i : Instr) (s : State) : State :=
  match i with
  | .readStatus p => readStatus p s
  | .readNotices p n => readNotices p n s
  | .setNoticeMode p mode n => setNoticeMode p mode n s
  | .readSlot p slot => readSlot p slot s
  | .readRoute p route => readRoute p route s
  | .readQueue p first => readQueue p first s
  | .readManifest p route lap first => readManifest p route lap first s
  | .announce p line seq variant mark => announce p line seq variant mark s
  | .advance p line seq variant mark => advance p line seq variant mark s
  | .sensorSnapshot p bank states => sensorSnapshot p bank states s
  | .depart p route => depart p route s
  | .arrive p route stopId => arrive p route stopId s
  | .drop p route label => drop p route label s
  | .lapEnd p route => lapEnd p route s
  | .readStopLines p route => readStopLines p route s
  | .beginPick p route lap => beginPick p route lap s
  | .shortPick p route lap line picked => shortPick p route lap line picked s
  | .loadConfirm p route lap => loadConfirm p route lap s
  | .ackLate p route => ackLate p route s
  | .readPickList p route lap first => readPickList p route lap first s
  | .stageSlot p slot op => stageSlot p slot op s
  | .stageUsage p line row first op => stageUsage p line row first op s
  | .stageRoute p route op => stageRoute p route op s
  | .stageWindow p index op => stageWindow p index op s
  | .stageGlobals p op => stageGlobals p op s
  | .apply p mode line => applyRequest p mode line s
  | .cancelApply p => cancelApply p s
  | .setDivert p index fields => setDivert p index fields s
  | .setGate p line mode => setGate p line mode s
  | .setHold p route on => setHold p route on s
  | .presetLate p route => presetLate p route s
  | .topup p slot n => topup p slot n s
  | .cancelDemand p slot => cancelDemand p slot s
  | .cancelManifest p route lap => cancelManifest p route lap s
  | .clearDiscrepancy p slot => clearDiscrepancy p slot s
  | .start p => startRequest p s
  | .stop p => stopRequest p s
  | .runReset p => runResetRequest p s
  | .readCounters p => readCounters p s
  | .powerOn | .resetN _ | .runEdge .. | .decisecondEnd | .wrap _ | .buildPoint _ | .departurePoint _ | .skippedPoint _
  | .frameDiscard .. | .unknown .. | .csNFall _ | .byteReceived .. | .transactionEnd _ => s

/-- A complete frame on a port, by the tests of R166 in their order: UNKNOWN, NOT_PERMITTED, BAD_ARG for a payload of the
wrong length, then the owner. -/
def completeFrame (p : Port) (code : Byte) (payload : List Byte) (s : State) : State :=
  match requestOf? code with
  | none => reply p .unknown .empty s
  | some q =>
    if permitted p q then
      match readFrame p q payload with
      | none => reply p .badArg .empty s
      | some i => takeOwner i s
    else reply p .notPermitted .empty s

/-- UNKNOWN: a complete frame whose code the part does not know is answered UNKNOWN (R166). The operands are the frame's; a
frame whose code is known after all is taken as R166 takes it. -/
def execUnknown (p : Port) (code : Byte) (payload : List Byte) (s : State) : Host.Outcome State Fault Refusal :=
  takeEvent s (completeFrame p code payload)

/-! ## Bytes and chip select -/

/-- A fall of CS_N starts a transaction at CODE, with nothing yet shifted out (R164). -/
def PortUnit.select (u : PortUnit) : PortUnit := { u with selected := true, rx := .code, sent := none }

/-- CS_N_FALL (R164). -/
def execCsNFall (p : Port) (s : State) : Host.Outcome State Fault Refusal :=
  takeEvent s fun s => s.modPort p PortUnit.select

/-- The port counts a discarded frame (R165). -/
def PortUnit.countError (u : PortUnit) : PortUnit := { u with frameErrors := bump u.frameErrors }

/-- The transaction is over: the port waits for the next fall, its MISO high-impedance (R164, R175). -/
def PortUnit.deselect (u : PortUnit) : PortUnit := { u with selected := false, rx := .code, sent := none }

/-- A rise of CS_N: it ends the transaction in any state, and in LENGTH or PAYLOAD the frame is discarded and counted
(R164, R165). -/
def PortUnit.rise (u : PortUnit) : PortUnit :=
  match u.rx with
  | .length _ | .payload .. => u.countError.deselect
  | .code | .response .. | .discard => u.deselect

/-- TRANSACTION_END: CS_N rises on a port with a transaction in progress (R164). Its row names the states that count no
frame error; in LENGTH or PAYLOAD the rise discards the frame (R165; log 4). -/
def execTransactionEnd (p : Port) (s : State) : Host.Outcome State Fault Refusal :=
  takeEvent s fun s => if (s.port p).selected then s.modPort p PortUnit.rise else s

/-- FRAME_DISCARD: a frame that does not complete is counted; CS_N has risen, or the port stands in DISCARD (R165; log 4). -/
def execFrameDiscard (p : Port) (cause : DiscardCause) (s : State) : Host.Outcome State Fault Refusal :=
  takeEvent s fun s => s.modPort p fun u =>
    match cause with
    | .chipSelect => u.countError.deselect
    | .overlong _ => { u.countError with selected := true, rx := .discard, sent := some fill }

/-- The port unit's receive state and the byte it sends, with the frame not completing (R164). -/
def PortUnit.shift (u : PortUnit) (rx : Receive) (sent : Byte) : PortUnit := { u with rx := rx, sent := some sent }

/-- A byte received on a port with a transaction in progress, by its receive state (R164, R165). -/
def State.receive (s : State) (p : Port) (byte : Byte) : State :=
  match (s.port p).rx with
  | .code => s.modPort p fun u => u.shift (.length byte) fill
  | .length code =>
    if byte = 0 then completeFrame p code [] s
    else if byte.toNat ≤ 60 then s.modPort p fun u => u.shift (.payload code byte.toNat []) fill
    else s.modPort p fun u => u.countError.shift .discard fill
  | .payload code declared got =>
    if got.length + 1 < declared then s.modPort p fun u => u.shift (.payload code declared (got ++ [byte])) fill
    else completeFrame p code (got ++ [byte]) s
  | .response f n => s.modPort p fun u => u.shift (.response f (n + 1)) (f.byteAt n)
  | .discard => s.modPort p fun u => u.shift .discard fill

/-- BYTE_RECEIVED (R164). A port without a transaction in progress is not selected and receives nothing. -/
def execByteReceived (p : Port) (byte : Byte) (s : State) : Host.Outcome State Fault Refusal :=
  takeEvent s fun s => if (s.port p).selected then s.receive p byte else s

end Sys2Proof.Machine
end

