-- ==== Sys2Proof/Machine/Dispatch.lean ====
section
/-!
DEFINITION. The dispatch: one arm for each command, each one direct call of its meaning.
-/

namespace Sys2Proof.Machine

open Sys2Proof

def exec (i : Instr) (s : State) : Host.Outcome State Fault Refusal :=
  match i with
  | .powerOn => Sys2Proof.Machine.execPowerOn s
  | .resetN level => Sys2Proof.Machine.execResetN level s
  | .runEdge line level => Sys2Proof.Machine.execRunEdge line level s
  | .decisecondEnd => Sys2Proof.Machine.execDecisecondEnd s
  | .wrap route => Sys2Proof.Machine.execWrap route s
  | .buildPoint route => Sys2Proof.Machine.execBuildPoint route s
  | .departurePoint route => Sys2Proof.Machine.execDeparturePoint route s
  | .skippedPoint route => Sys2Proof.Machine.execSkippedPoint route s
  | .frameDiscard port cause => Sys2Proof.Machine.execFrameDiscard port cause s
  | .unknown port code payload => Sys2Proof.Machine.execUnknown port code payload s
  | .readStatus port => Sys2Proof.Machine.execReadStatus port s
  | .readNotices port n => Sys2Proof.Machine.execReadNotices port n s
  | .setNoticeMode port mode n => Sys2Proof.Machine.execSetNoticeMode port mode n s
  | .readSlot port slot => Sys2Proof.Machine.execReadSlot port slot s
  | .readRoute port route => Sys2Proof.Machine.execReadRoute port route s
  | .readQueue port first => Sys2Proof.Machine.execReadQueue port first s
  | .readManifest port route lap first => Sys2Proof.Machine.execReadManifest port route lap first s
  | .announce port line seq variant mark => Sys2Proof.Machine.execAnnounce port line seq variant mark s
  | .advance port line seq variant mark => Sys2Proof.Machine.execAdvance port line seq variant mark s
  | .sensorSnapshot port bank states => Sys2Proof.Machine.execSensorSnapshot port bank states s
  | .depart port route => Sys2Proof.Machine.execDepart port route s
  | .arrive port route stopId => Sys2Proof.Machine.execArrive port route stopId s
  | .drop port route label => Sys2Proof.Machine.execDrop port route label s
  | .lapEnd port route => Sys2Proof.Machine.execLapEnd port route s
  | .readStopLines port route => Sys2Proof.Machine.execReadStopLines port route s
  | .beginPick port route lap => Sys2Proof.Machine.execBeginPick port route lap s
  | .shortPick port route lap line picked => Sys2Proof.Machine.execShortPick port route lap line picked s
  | .loadConfirm port route lap => Sys2Proof.Machine.execLoadConfirm port route lap s
  | .ackLate port route => Sys2Proof.Machine.execAckLate port route s
  | .readPickList port route lap first => Sys2Proof.Machine.execReadPickList port route lap first s
  | .stageSlot port slot op => Sys2Proof.Machine.execStageSlot port slot op s
  | .stageUsage port line row first op => Sys2Proof.Machine.execStageUsage port line row first op s
  | .stageRoute port route op => Sys2Proof.Machine.execStageRoute port route op s
  | .stageWindow port index op => Sys2Proof.Machine.execStageWindow port index op s
  | .stageGlobals port op => Sys2Proof.Machine.execStageGlobals port op s
  | .apply port mode line => Sys2Proof.Machine.execApply port mode line s
  | .cancelApply port => Sys2Proof.Machine.execCancelApply port s
  | .setDivert port index fields => Sys2Proof.Machine.execSetDivert port index fields s
  | .setGate port line mode => Sys2Proof.Machine.execSetGate port line mode s
  | .setHold port route on => Sys2Proof.Machine.execSetHold port route on s
  | .presetLate port route => Sys2Proof.Machine.execPresetLate port route s
  | .topup port slot n => Sys2Proof.Machine.execTopup port slot n s
  | .cancelDemand port slot => Sys2Proof.Machine.execCancelDemand port slot s
  | .cancelManifest port route lap => Sys2Proof.Machine.execCancelManifest port route lap s
  | .clearDiscrepancy port slot => Sys2Proof.Machine.execClearDiscrepancy port slot s
  | .start port => Sys2Proof.Machine.execStart port s
  | .stop port => Sys2Proof.Machine.execStop port s
  | .runReset port => Sys2Proof.Machine.execRunReset port s
  | .readCounters port => Sys2Proof.Machine.execReadCounters port s
  | .csNFall port => Sys2Proof.Machine.execCsNFall port s
  | .byteReceived port byte => Sys2Proof.Machine.execByteReceived port byte s
  | .transactionEnd port => Sys2Proof.Machine.execTransactionEnd port s

end Sys2Proof.Machine
end

