-- ==== Sys2Proof/Safety.lean ====
section
/-!
DEFINITION. What a good state is: the laws of the device and the ranges of its fields, as predicates on State, and the words
the statements share. Each law is meant to hold at reset and to be kept by every step.
-/

namespace Sys2Proof.Machine

open Sys2Proof

/-! ## Ranges of the tables -/

/-- A route's timing fields are in range (R82). -/
structure RouteTiming.InRange (t : RouteTiming) : Prop where
  period_low : 600 ≤ t.period
  period_high : t.period ≤ 36000
  build : t.buildAt ≤ 65535
  depart : t.departAt ≤ 65535

/-- A route's configuration fields are in range (R82, R101, R119). -/
structure RouteConfig.InRange (c : RouteConfig) : Prop where
  timing : c.timing.InRange
  small : c.caps.s ≤ 48
  medium : c.caps.m ≤ 16
  large : c.caps.l ≤ 6
  stops_low : 1 ≤ c.stops.length
  stops_high : c.stops.length ≤ 16

/-- The fields of a slot's configuration that are clamped when staged are in range (R3 to R6). -/
structure SlotConfig.InRange (c : SlotConfig) : Prop where
  allowance : c.allowance ≤ 250
  cq_low : 1 ≤ c.cq
  cq_high : c.cq ≤ 9999
  mc_low : 1 ≤ c.mc
  mc_high : c.mc ≤ 4
  band : c.band ≤ 255
  rack_low : 1 ≤ c.rackSize
  rack_high : c.rackSize ≤ 12
  lead : c.minLead ≤ 24

/-- The fields of a KANBAN slot that an apply clamps are within their bounds (R4, R5, R161). -/
structure SlotConfig.Bounded (c : SlotConfig) : Prop where
  rop : c.rop ≤ (c.mc - 1) * c.cq
  eye : c.eye ≤ c.mc * c.cq
  start : ∀ n, c.start = .parts n → n ≤ c.mc * c.cq

/-- A line's usage matrix and allowances are in range, and the row of variant 0 is 0 (R10, R11). -/
structure LineUsage.InRange (u : LineUsage) : Prop where
  entry : ∀ (v : Variant) (g : Fin 16), u.quantity v g ≤ 15
  gap : ∀ g : Fin 16, u.quantity 0 g = 0
  allowance : ∀ g : Fin 16, u.allowance[g] ≤ 250

/-- A window's fields are in range (R63). -/
structure Window.InRange (w : Window) : Prop where
  stopBase : w.stopBase ≤ 15
  spread : ∀ p, w.spread = some p → p ≤ 20

/-- Every table, staged and live, holds only values its ranges allow (R3 to R6, R10, R11, R43, R59, R63, R82, R101, R119). -/
structure State.TablesLaw (s : State) : Prop where
  stagedSlots : ∀ i : SlotId, s.image.slots[i].InRange
  stagedUsage : ∀ l, (s.image.usage.get l).InRange
  stagedRoutes : ∀ r : RouteId, s.image.routes[r].InRange
  stagedWindows : ∀ k : Fin 12, s.image.windows[k].InRange
  stagedAge : s.image.ageStep ≤ 7
  stagedHigh : 1 ≤ s.image.watermark ∧ s.image.watermark ≤ 128
  slots : ∀ i, (s.slot i).cfg.InRange
  bounds : ∀ i, (s.slot i).cfg.kind = .kanban → (s.slot i).cfg.Bounded
  usage : ∀ l, (s.usage.get l).InRange
  routes : ∀ r, (s.route r).cfg.InRange
  coverage : ∀ k : Fin 12, s.coverage[k].InRange
  diverts : ∀ k : Fin 4, s.diverts[k].InRange
  age : s.demand.ageStep ≤ 7
  high : 1 ≤ s.demand.watermark ∧ s.demand.watermark ≤ 128

/-! ## The laws of the device -/

/-- The first law, and the flags that go with the estimate: a KANBAN slot's OH lies in 0..S_mp and SHORT means OH is 0 (R7,
R9); a SEQUENCED slot holds every live field but its marks at rest (R7, R8, R23); a KANBAN slot's marks are UNANCHORED
(R28). -/
structure Slot.EstimateLaw (x : Slot) : Prop where
  range : x.cfg.kind = .kanban → x.oh ≤ x.cfg.fullMp
  empty : x.short = true → x.oh = 0
  sequenced : x.cfg.kind = .sequenced → x = { cfg := x.cfg, marks := x.marks }
  unanchored : x.cfg.kind = .kanban → x.marks = none

/-- The second law (R8), with R20: a KANBAN slot's ordered is its OPEN containers and its undelivered BIN containers, at most
MC unless it has no OPEN line; a SEQUENCED slot has no OPEN line; an ORDER_BLOCKED slot has none either. -/
structure State.OrderedLaw (s : State) : Prop where
  count : ∀ i, (s.slot i).cfg.kind = .kanban → (s.slot i).ordered = s.openContainers i + s.binsOut i
  bound : ∀ i, (s.slot i).cfg.kind = .kanban → (s.slot i).cfg.mc < (s.slot i).ordered → s.openLine i = none
  sequenced : ∀ i, (s.slot i).cfg.kind = .sequenced → s.openLine i = none
  blocked : ∀ i, (s.slot i).blocked = true → s.openLine i = none

/-- The third law, and the ranges of a demand line (R42). -/
structure DemandQueue.Law (d : DemandQueue) : Prop where
  count : d.lines.length ≤ 128
  oneEach : (d.lines.map (·.slot)).Nodup
  containers : ∀ x ∈ d.lines, 1 ≤ x.containers ∧ x.containers ≤ 4
  passes : ∀ x ∈ d.lines, x.passes ≤ 255

/-- The fourth law, and what the stop pointer and the current stop stand at (R119, R128, R130). -/
structure Route.TrainLaw (x : Route) : Prop where
  oneTrain : ¬(x.buffers.lower.state = .onRoute ∧ x.buffers.upper.state = .onRoute)
  atRest : x.buffers.lower.state ≠ .onRoute → x.buffers.upper.state ≠ .onRoute → x.pointer = 0 ∧ x.current = none
  pointer : x.pointer = (x.current.map (· + 1)).getD 0
  onLoop : ∀ h, (x.buffers.get h).state = .onRoute →
    ∃ l, (x.buffers.get h).stops = some l ∧ 1 ≤ l.length ∧ l.length ≤ 16 ∧ x.pointer ≤ l.length
  notLeft : ∀ h, (x.buffers.get h).live → (x.buffers.get h).state ≠ .onRoute → (x.buffers.get h).stops = none

/-- A manifest line's fields are in range and agree with its state (R99, R121). -/
structure ManifestLine.Law (x : ManifestLine) : Prop where
  stop : x.stop ≤ 15
  planned : 1 ≤ x.planned ∧ x.planned ≤ 4
  held : x.held ≤ x.planned
  delivered : x.delivered ≤ x.held
  open_ : x.state = .planned → x.delivered < x.held
  done : x.state = .delivered → x.delivered = x.held
  rack : ∀ a b n, x.load = .rack a b n → x.planned = 1 ∧ 1 ≤ n ∧ n ≤ 12

/-- The fifth law, as far as a state shows it, and the fields of a live manifest (R97, R98, R100): the carried load is the
held containers and within the classes' ranges; before departure nothing is delivered. -/
structure Buffer.ManifestLaw (b : Buffer) : Prop where
  free : b.state = .free → b.lines = []
  count : b.lines.length ≤ 32
  lines : ∀ x ∈ b.lines, x.Law
  order : b.lines.Pairwise (fun x y => x.stop ≤ y.stop)
  load : b.live → b.load = carriedLoad b.lines
  small : b.live → b.load.s ≤ 48
  medium : b.live → b.load.m ≤ 16
  large : b.live → b.load.l ≤ 6
  seen : b.seen ≤ 2
  waiting : b.state ≠ .onRoute → ∀ x ∈ b.lines, x.delivered = 0 ∧ (x.state = .planned ∨ (x.state = .returned ∧ x.held = 0))

/-- The undelivered rack lines of a slot over every live manifest (R106). -/
def State.racksOut (s : State) (i : SlotId) : List ManifestLine :=
  routeIds.flatMap fun r => (s.route r).liveHalves.flatMap fun h =>
    (s.buffer r h).lines.filter fun x => x.rackOf i && x.state == .planned

/-- The sixth law (R38), and where the marks stand (R28, R39): a slot has at most one rack out; with none out its two marks
are equal; with one out covered-through may instead be that rack's last seq, after delivered-through. -/
structure State.RackLaw (s : State) : Prop where
  one : ∀ i, (s.racksOut i).length ≤ 1
  marks : ∀ i m, (s.slot i).marks = some m → m.covered = m.delivered ∨
    ∃ x ∈ s.racksOut i, ∃ a n, x.load = .rack a m.covered n ∧ seqAfter m.covered m.delivered = true

/-- The seventh law, with a pending timing in range (R83, R94). -/
structure Route.TimingLaw (x : Route) : Prop where
  counter : x.c < x.cfg.timing.period
  pending : ∀ t, x.next = some t → t.InRange

/-- The eighth law, with N in range and the attention output judged (R169, R172, R173). -/
structure NoticeQueue.Law (q : NoticeQueue) : Prop where
  count : q.items.length ≤ 16
  threshold : 1 ≤ q.threshold ∧ q.threshold ≤ 4
  attn : q.attn = q.asserted

/-- The ninth law (R24): at most 64 units, each numbered one after the one before it; and the tail is the last announced
(R26, R27). -/
structure LineSequence.Law (q : LineSequence) : Prop where
  count : q.units.length ≤ 64
  consecutive : q.units.IsChain (fun u v => v.seq = u.seq + 1)
  tail : ∀ u, q.units.getLast? = some u → q.last = some u.seq

/-- The tenth law (R142), and that no route event is due outside ACTIVE (R75, R176; log 7). -/
structure State.ColdLaw (s : State) : Prop where
  manifests : s.mode = .cold → ∀ r h, (s.buffer r h).state = .free
  demand : s.mode = .cold → s.demand.lines = []
  units : s.mode = .cold → ∀ l, (s.seq l).units = []
  quiet : s.mode ≠ .active → ∀ r, (s.route r).due = none

/-- The twelfth law, with the kind that goes with the count (R143, R146). -/
structure Slot.CheckerLaw (x : Slot) : Prop where
  count : x.disCount ≤ 4
  kind : x.disCount = 0 ↔ x.disKind = none
  withheld : x.withheld = true → x.discrepant ≠ none
  declared : x.disCount = 4 → x.discrepant ≠ none

/-- A port's receive state (R164): a payload is never complete while the state is PAYLOAD, and a port that is not selected
waits at CODE with MISO high-impedance (R175). -/
structure PortUnit.Law (u : PortUnit) : Prop where
  payload : ∀ c n got, u.rx = .payload c n got → got.length < n ∧ n ≤ 60
  idle : u.selected = false → u.rx = .code ∧ u.sent = none

/-- Every statistics counter stays within 16 bits (00_scope.md, "Counters"). -/
structure State.CountersLaw (s : State) : Prop where
  slots : ∀ i, (s.slot i).shortfalls ≤ 65535 ∧ (s.slot i).overfills ≤ 65535 ∧ (s.slot i).resyncs ≤ 65535
  routes : ∀ r, (s.route r).lateCount ≤ 65535 ∧ (s.route r).overdueCount ≤ 65535 ∧ (s.route r).heldCount ≤ 65535 ∧
    (s.route r).missedCount ≤ 65535 ∧ (s.route r).skippedCount ≤ 65535 ∧ (s.route r).mismatches ≤ 65535
  demand : s.demand.returnsDropped ≤ 65535 ∧ s.demand.ordersRefused ≤ 65535
  ports : ∀ p, (s.port p).frameErrors ≤ 65535 ∧ (s.queue p).lost ≤ 65535

/-- A state that keeps every law of the device and every range of its fields. -/
structure State.Lawful (s : State) : Prop where
  tables : s.TablesLaw
  estimate : ∀ i, (s.slot i).EstimateLaw
  ordered : s.OrderedLaw
  demand : s.demand.Law
  train : ∀ r, (s.route r).TrainLaw
  manifest : ∀ r h, (s.buffer r h).ManifestLaw
  rack : s.RackLaw
  timing : ∀ r, (s.route r).TimingLaw
  notices : ∀ p, (s.queue p).Law
  sequence : ∀ l, (s.seq l).Law
  cold : s.ColdLaw
  checker : ∀ i, (s.slot i).CheckerLaw
  ports : ∀ p, (s.port p).Law
  counters : s.CountersLaw

/-! ## The power-on state -/

/-- Every block holds its power-on values (R180): R22 for the slots and usage, R41 for the sequences, R62 for the demand
queue, R74 for the windows, R81 for the clocks (each gate as its RUN input stands), R96, R101 and R142 for the routes, R155
for the staging unit, R175 for the ports and notices. -/
structure State.AtPowerOn (t : State) : Prop where
  mode : t.mode = .cold
  slots : ∀ i, t.slot i = {
    cfg := {
      kind := .kanban, status := .inactive, line := .a, location := 0, part := 0, group := 0, allowance := 0, size := .s,
      cq := 1, mc := 1, rop := 0, start := .parts 0, sensor := none, eye := 0, band := 0, policy := .report,
      rackSize := 1, minLead := 0 }
    oh := 0, ordered := 0, short := false, blocked := false, discrepant := none, withheld := false,
    shortfalls := 0, overfills := 0, resyncs := 0, disKind := none, disCount := 0, marks := none }
  usage : ∀ l v g, (t.usage.get l).quantity v g = 0 ∧ (t.usage.get l).allowance[g] = 0
  sequences : ∀ l, t.seq l = { units := [], last := none }
  demand : t.demand = {
    lines := [], ageStep := 2, watermark := 96, highArmed := true, fullArmed := true, returnsDropped := 0,
    ordersRefused := 0 }
  coverage : ∀ k : Fin 12, t.coverage[k] = {
    enabled := false, base := 0, mask := 0, route := 0, stopBase := 0, spread := none }
  diverts : ∀ k : Fin 4, t.diverts[k] = {
    enabled := false, base := 0, mask := 0, route := 0, stopBase := 0, spread := none }
  plant : t.plant = 0
  clocks : ∀ l, t.clock l = {
    time := 0, mode := .follow, isOpen := (t.clock l).run == .high, fired := false, run := (t.clock l).run }
  timing : ∀ r, (t.route r).cfg.timing = { enabled := false, source := .plant, period := 600, buildAt := 0, departAt := 0 }
  pendingTiming : ∀ r, (t.route r).next = none
  counters : ∀ r, (t.route r).c = 0 ∧ (t.route r).lap = 0 ∧ (t.route r).late = false ∧ (t.route r).hold = false ∧
    (t.route r).lateCount = 0 ∧ (t.route r).overdueCount = 0 ∧ (t.route r).heldCount = 0 ∧
    (t.route r).missedCount = 0 ∧ (t.route r).skippedCount = 0
  lapFields : ∀ r, (t.route r).cfg.caps = ⟨0, 0, 0⟩ ∧ (t.route r).cfg.stops = [0] ∧
    (t.route r).cfg.matchMode = .first ∧ (t.route r).cfg.mask = 0xFFFFFFFF
  laps : ∀ r, (t.route r).pointer = 0 ∧ (t.route r).current = none ∧ (t.route r).mismatches = 0
  buffers : ∀ r h, (t.buffer r h).state = .free ∧ (t.buffer r h).lines = []
  image : (∀ i : SlotId, t.image.slots[i] = (t.slot i).cfg) ∧ t.image.usage = t.usage ∧
    t.image.ageStep = t.demand.ageStep ∧ t.image.watermark = t.demand.watermark ∧
    (∀ r : RouteId, t.image.routes[r] = (t.route r).cfg) ∧ t.image.windows = t.coverage
  applyState : t.applyState = .idle
  ports : ∀ p, t.port p = { selected := false, rx := .code, sent := none, frameErrors := 0 }
  notices : ∀ p, t.queue p = { items := [], marker := false, mode := .halt, threshold := 1, lost := 0, attn := false }

/-! ## Words the statements share -/

/-- A port's request was answered: its port unit stands at the start of RESPONSE with this status and body, fill sent with the
frame's last byte, its frame-error counter as it was; the other port units are as they were (R164). -/
structure Answered (s t : State) (p : Port) (st : Status) (b : Body) : Prop where
  own : t.port p = { s.port p with selected := true, rx := .response ⟨st, b⟩ 0, sent := some 0xFF }
  others : ∀ q, q ≠ p → t.port q = s.port q

/-- A request was answered and nothing beyond the asking port's unit changed. -/
def OnlyAnswered (s t : State) (p : Port) (st : Status) (b : Body) : Prop :=
  Answered s t p st b ∧ t = { s with ports := t.ports }

/-- One slot's record may have changed, and no other's. -/
def OnlySlot (s t : State) (i : SlotId) : Prop := ∀ j, j ≠ i → t.slot j = s.slot j

/-- One route may have changed, and no other. -/
def OnlyRoute (s t : State) (r : RouteId) : Prop := ∀ k, k ≠ r → t.route k = s.route k

/-- A slot's record is as it was but for ordered and ORDER_BLOCKED, which orders, top-ups, returns and cancels move (R8,
R9). -/
def SameButOrders (x y : Slot) : Prop := y = { x with ordered := y.ordered, blocked := y.blocked }

/-! ### What an advance does, in the rules' own words -/

/-- A slot of one kind that an advance of a line reaches: of that line, ACTIVE or SUSPENDED (R12, R31, R34). -/
abbrev Slot.reachedBy (x : Slot) (l : Line) (kind : SlotKind) : Prop :=
  x.cfg.kind = kind ∧ x.cfg.status ≠ .inactive ∧ x.cfg.line = l

/-- The draw of a unit on a slot, in milliparts (R13). -/
def State.drawOn (s : State) (l : Line) (v : Variant) (x : Slot) : Nat :=
  let u := s.usage.get l
  (u.quantity v x.cfg.group * (1000 + u.allowance[x.cfg.group]) * (1000 + x.cfg.allowance) + 500) / 1000

/-- A KANBAN slot's record after a draw of d above 0: OH down to 0 at least, SHORT where it stands at 0, a draw beyond OH a
shortfall (R14, R15). -/
def Slot.charged (x : Slot) (d : Nat) : Slot :=
  { x with
    oh := x.oh - d
    short := x.short || decide (x.oh ≤ d)
    shortfalls := if x.oh < d then min (x.shortfalls + 1) 65535 else x.shortfalls }

/-- A slot takes a draw of d above 0: its record moves, SHORTFALL follows where it first empties, then its evaluation (R14,
R15, R18). -/
def State.charge (s : State) (i : SlotId) (d : Nat) (seq : SeqNo) : State :=
  let x := s.slot i
  let t := { s with slots := s.slots.set i (x.charged d) }
  (if x.oh ≤ d ∧ x.short = false then t.raise (.shortfall i seq (x.charged d).shortfalls) else t).evaluate i

/-- The draws of an advance: none for variant 0, otherwise one of each KANBAN slot it reaches, in ascending slot number, each
whole before the next; a draw of 0 does nothing (R12, R14). -/
def State.afterDraws (s : State) (l : Line) (v : Variant) (seq : SeqNo) : State :=
  (List.finRange 192).foldl (fun t i =>
    let d := t.drawOn l v (t.slot i)
    if v ≠ 0 ∧ d ≠ 0 ∧ (t.slot i).reachedBy l .kanban then t.charge i d seq else t) s

/-- The orphans of pulled units: one for each unit and each anchored SEQUENCED slot the advance reaches that the unit qualifies
for and whose delivered-through reaches it (R31, R35). -/
def State.orphansOf (s : State) (l : Line) (pulled : List AnnouncedUnit) : Nat :=
  (pulled.map fun u => (List.finRange 192).countP fun i =>
    let x := s.slot i
    decide (x.reachedBy l .sequenced ∧ 0 < (s.usage.get l).quantity u.variant x.cfg.group) &&
    x.marks.any fun m => !seqAfter u.seq m.delivered).sum

/-- The line's list settled at seq: the units up to it leave, and where k ≥ 1 units are pulled one SEQ_BREAK follows (R30,
R31). -/
def State.afterSettling (s : State) (l : Line) (seq : SeqNo) : State :=
  let units := (s.seq l).units
  match units.findIdx? (·.seq == seq) with
  | none => s
  | some k =>
    let t := s.modSeq l fun q => { q with units := units.drop (k + 1) }
    if k = 0 then t else t.raise (.seqBreak l seq k (min 65535 (s.orphansOf l (units.take k))))

/-- The notice a slot's starvation test raises, `listed` saying that the unit stood in the list: the first reason that holds,
at a SEQUENCED slot the advance reaches and the unit qualifies for (R34, R35). -/
def State.starvedAt (s : State) (l : Line) (v : Variant) (seq : SeqNo) (listed : Bool) (i : SlotId) : Option Event :=
  let x := s.slot i
  if x.reachedBy l .sequenced ∧ 0 < (s.usage.get l).quantity v x.cfg.group then
    match x.marks with
    | none => some (.seqStarved i seq .unanchored)
    | some m =>
      if listed = false then some (.seqStarved i seq .unannounced)
      else if seqAfter seq m.delivered then some (.seqStarved i seq .notDelivered)
      else none
  else none

/-- The draws of an advance, then its SEQ_STARVED notices in ascending slot number (R33). -/
def State.afterUnit (s : State) (l : Line) (v : Variant) (seq : SeqNo) (listed : Bool) : State :=
  ((List.finRange 192).filterMap (s.starvedAt l v seq listed)).foldl State.raise (s.afterDraws l v seq)

/-- An advance takes the plan: the staging unit is ARMED for its line, and its own mark field, the unit at seq or a unit
pulled ahead of it carries the plan mark (R32). -/
def State.takesPlan (s : State) (l : Line) (seq : SeqNo) (mark : Bool) : Prop :=
  s.applyState = .armed l ∧ (mark = true ∨ ∃ k j u, (s.seq l).units.findIdx? (·.seq == seq) = some k ∧ j ≤ k ∧
    (s.seq l).units[j]? = some u ∧ u.mark = true)

end Sys2Proof.Machine
end

