-- ==== Sys2Proof/WellFormed.lean ====
section
/-!
DEFINITION. Which commands are well formed: the conditions under which a frame-level row is the event its name says
(R164 to R166). A request's own range tests are not here, because a request out of range is taken and answered by its owner.
-/

namespace Sys2Proof

/-- The request codes the part knows (R166). -/
def knownCode (code : Byte) : Bool :=
  (1 ≤ code.toNat && code.toNat ≤ 0x07) || (0x10 ≤ code.toNat && code.toNat ≤ 0x12) ||
  (0x20 ≤ code.toNat && code.toNat ≤ 0x24) || (0x30 ≤ code.toNat && code.toNat ≤ 0x34) ||
  (0x40 ≤ code.toNat && code.toNat ≤ 0x52)

/-- A command that can be the event its row names: an UNKNOWN carries a code the part does not know and a payload a frame
can declare (R164, R166); an overlong discard declares a length above 60 (R165). -/
def Instr.wellFormed : Instr → Bool
  | .unknown _ code payload => !knownCode code && decide (payload.length ≤ 60)
  | .frameDiscard _ (.overlong declared) => decide (60 < declared.toNat)
  | _ => true

end Sys2Proof
end

