-- ==== Sys2Proof/Certificates/Slice0/Obligations.lean ====
section
/-!
DEFINITION. The statements for the provers. Rule numbers are those of spec/; a clause that rests on a choice of the model names
its log entry.
-/

open Sys2Proof Sys2Proof.Machine

/-! ## The machine -/

/-- One step takes the command at the front of the queue and executes it with the queue's rest; on an empty queue the block
idles, which is the model's choice (log 1). -/
def Obligations.StepTakesTheFrontCommand : Prop :=
  (∀ (c : Instr) (rest : List Instr) (s : State),
    step { s with pending := c :: rest } = exec c { s with pending := rest }) ∧
  ∀ s : State, s.pending = [] → step s = .next s

/-- Every command, with any operands and in any state, answers a next state. That the waiting commands stay, POWER_ON and RESET_N
included, is the model's choice (log 22). -/
def Obligations.EveryCommandAnswersANextState : Prop :=
  ∀ (i : Instr) (s : State), ∃ t, exec i s = .next t ∧ t.pending = s.pending

/-- A request that its port may not send, by the codes of R166, is answered NOT_PERMITTED and changes nothing else. -/
def Obligations.PortsKeepToTheirRights : Prop :=
  ∀ (i : Instr) (p : Port) (q : Request) (s : State), requestIn? i = some (p, q) → s.resetN = .high →
    let c := (requestCode q).toNat
    ¬((1 ≤ c ∧ c ≤ 0x07) ∨ (p = .lp ∧ 0x10 ≤ c ∧ c ≤ 0x12) ∨ (p = .tp ∧ 0x20 ≤ c ∧ c ≤ 0x24) ∨
      (p = .sp ∧ 0x30 ≤ c ∧ c ≤ 0x34) ∨ (p = .ep ∧ (c = 0x33 ∨ (0x40 ≤ c ∧ c ≤ 0x52)))) →
    ∃ t, exec i s = .next t ∧ OnlyAnswered s t p .notPermitted .empty

/-- POWER_ON, and RESET_N at a change of its level: every block holds its power-on values (R180); the input pins keep their levels
and the waiting commands stay (log 2, log 22), and a RESET_N that names the present level changes nothing (log 14). While RESET_N is
low nothing else is taken but an edge on a RUN input (R180; log 14). -/
def Obligations.PowerAndResetPinGiveThePowerOnState : Prop :=
  ∀ s : State,
    (∃ t, exec .powerOn s = .next t ∧ t.AtPowerOn ∧ (∀ l, (t.clock l).run = (s.clock l).run) ∧
      t.resetN = s.resetN ∧ t.pending = s.pending) ∧
    ∀ v : Level,
      (s.resetN ≠ v → ∃ t, exec (.resetN v) s = .next t ∧ t.AtPowerOn ∧ (∀ l, (t.clock l).run = (s.clock l).run) ∧
        t.resetN = v ∧ t.pending = s.pending) ∧
      (s.resetN = v → exec (.resetN v) s = .next s) ∧
      (s.resetN = .low → ∀ i : Instr, i ≠ .powerOn → (∀ w, i ≠ .resetN w) → (∀ l w, i ≠ .runEdge l w) →
        exec i s = .next s)

/-! ## The laws of the device -/

/-- The state after reset holds the power-on values and keeps every law; no command waits. -/
def Obligations.ResetStateIsLawful : Prop :=
  State.reset.AtPowerOn ∧ State.reset.Lawful ∧ State.reset.pending = []

/-- The seventh law, with every staged and live table in its ranges, is kept by every step. -/
def Obligations.TablesAndTimingStayInRange : Prop :=
  ∀ s t : State, s.Lawful → step s = .next t → t.TablesLaw ∧ ∀ r, (t.route r).TimingLaw

/-- The eighth law, the judged attention outputs, the receive states and the 16-bit counters are kept by every step. -/
def Obligations.PortsNoticesAndCountersStayLawful : Prop :=
  ∀ s t : State, s.Lawful → step s = .next t →
    (∀ p, (t.queue p).Law) ∧ (∀ p, (t.port p).Law) ∧ t.CountersLaw

/-- The ninth and the tenth law are kept by every step: the sequence lists stay consecutive, COLD stays empty, and outside ACTIVE no
route event is due (log 7). -/
def Obligations.SequencesAndColdStayLawful : Prop :=
  ∀ s t : State, s.Lawful → step s = .next t → (∀ l, (t.seq l).Law) ∧ t.ColdLaw

/-- The first and the twelfth law are kept by every step. -/
def Obligations.EstimatesAndChecksStayLawful : Prop :=
  ∀ s t : State, s.Lawful → step s = .next t → ∀ i, (t.slot i).EstimateLaw ∧ (t.slot i).CheckerLaw

/-- The second and the third law are kept by every step: no container is lost from ordered, and no slot has two lines. -/
def Obligations.DemandStaysAccountedFor : Prop :=
  ∀ s t : State, s.Lawful → step s = .next t → t.demand.Law ∧ t.OrderedLaw

/-- Every step keeps the fourth law (R119, R128) and, as far as a state shows it, the fifth (R98): a manifest has at most 32 lines, and a
live one's carried load is their held containers, within the classes' ranges 48, 16 and 6. The capacities at a manifest's build are not held in a state (R98);
of them this says that no step raises, in any size class, the carried load of a manifest that is live before it and after it. That the
load of a new manifest is within the capacities at its build is said by BuildOffersWhatFits. -/
def Obligations.TrainsAndManifestsStayLawful : Prop :=
  ∀ s t : State, s.Lawful → step s = .next t →
    (∀ r, (t.route r).TrainLaw) ∧ (∀ r h, (t.buffer r h).ManifestLaw) ∧
    ∀ r h, (s.buffer r h).state ≠ .free → (t.buffer r h).state ≠ .free →
      ∀ z : SizeClass, (t.buffer r h).load.get z ≤ (s.buffer r h).load.get z

/-- The sixth law, with the two marks of every slot, is kept by every step. -/
def Obligations.RacksStayOneToASlot : Prop :=
  ∀ s t : State, s.Lawful → step s = .next t → t.RackLaw

/-! ## Clocks and routes -/

/-- RUN_EDGE: what an edge does to the gate and its latch in each gate mode (R77 to R79). A command that names the present
level is no edge (log 14). -/
def Obligations.RunEdgeMovesTheGate : Prop :=
  ∀ (s : State) (l : Line) (v : Level),
    ((s.clock l).run = v → exec (.runEdge l v) s = .next s) ∧
    ((s.clock l).run ≠ v → ∃ t, exec (.runEdge l v) s = .next t ∧ t = { s with clocks := t.clocks } ∧
      (∀ k, k ≠ l → t.clock k = s.clock k) ∧
      t.clock l = { s.clock l with run := v, isOpen := (t.clock l).isOpen, fired := (t.clock l).fired } ∧
      ((s.clock l).mode = .follow → (t.clock l).isOpen = (v == .high) ∧ (t.clock l).fired = (s.clock l).fired) ∧
      ((s.clock l).mode = .opened ∨ (s.clock l).mode = .held →
        (t.clock l).isOpen = (s.clock l).isOpen ∧ (t.clock l).fired = (s.clock l).fired) ∧
      ((s.clock l).mode = .startOnce ∨ (s.clock l).mode = .stopOnce → (s.clock l).fired = true →
        (t.clock l).isOpen = (s.clock l).isOpen ∧ (t.clock l).fired = true) ∧
      ((s.clock l).mode = .startOnce → (s.clock l).fired = false →
        (t.clock l).isOpen = ((s.clock l).isOpen || v == .high) ∧ (t.clock l).fired = (v == .high)) ∧
      ((s.clock l).mode = .stopOnce → (s.clock l).fired = false →
        (t.clock l).isOpen = ((s.clock l).isOpen && v == .high) ∧ (t.clock l).fired = (v == .low)))

/-- SET_GATE: the mode is written, the latch armed and the gate set, whatever the mode was; a line or a mode that is not one
of those named is refused and changes nothing (R80). -/
def Obligations.SetGateWritesModeLatchAndGate : Prop :=
  ∀ (s : State), s.resetN = .high →
    (∀ (l : Line) (m : GateMode), ∃ t,
      let gate := (m == .follow && (s.clock l).run == .high) || m == .stopOnce || m == .opened
      exec (.setGate .ep (some l) (some m)) s = .next t ∧ Answered s t .ep .ok (.gate m gate false) ∧
      t = { s with clocks := t.clocks, ports := t.ports } ∧ (∀ k, k ≠ l → t.clock k = s.clock k) ∧
      t.clock l = { s.clock l with mode := m, fired := false, isOpen := gate }) ∧
    ∀ (l : Option Line) (m : Option GateMode), l = none ∨ m = none →
      ∃ t, exec (.setGate .ep l m) s = .next t ∧ OnlyAnswered s t .ep .badArg .empty

/-- DECISECOND_END moves the clocks: in ACTIVE plant time and every line time whose gate is open increase by 1, modulo 2^32;
outside ACTIVE nothing changes (R75, R76). What the decisecond leaves alone is named. -/
def Obligations.DecisecondAdvancesTheClocks : Prop :=
  ∀ s : State, s.resetN = .high →
    (s.mode ≠ .active → exec .decisecondEnd s = .next s) ∧
    (s.mode = .active → ∃ t, exec .decisecondEnd s = .next t ∧ t.plant = s.plant + 1 ∧
      (∀ l, t.clock l = { s.clock l with time := if (s.clock l).isOpen then (s.clock l).time + 1 else (s.clock l).time }) ∧
      t = { s with plant := t.plant, clocks := t.clocks, routes := t.routes, slots := t.slots, demand := t.demand,
                   queues := t.queues })

/-- DECISECOND_END counts the routes: with no route event outstanding, an enabled route whose clock ticked counts C up, and
the point that C reaches falls due, or its wrap falls due where C would reach P; every other route, and everything but the
clocks, is as it was (R83, R85, R86, R89). That the event waits in `due` is the model's choice (log 7). -/
def Obligations.DecisecondCountsTheRoutes : Prop :=
  ∀ s : State, s.resetN = .high → s.mode = .active → (∀ r, (s.route r).due = none) →
    ∃ t, exec .decisecondEnd s = .next t ∧
      t = { s with plant := t.plant, clocks := t.clocks, routes := t.routes } ∧
      ∀ r, let x := s.route r
        let g := x.cfg.timing
        let ticks := g.source = .plant ∨ ∃ l, g.source = .line l ∧ (s.clock l).isOpen = true
        (g.enabled = true → ticks → x.c + 1 < g.period →
          t.route r = { x with c := x.c + 1, due := (t.route r).due } ∧
          ((t.route r).due = some .skipped ↔ g.buildAt = x.c + 1 ∧ g.departAt = x.c + 1) ∧
          ((t.route r).due = some .build ↔ g.buildAt = x.c + 1 ∧ g.departAt ≠ x.c + 1) ∧
          ((t.route r).due = some .departure ↔ g.departAt = x.c + 1 ∧ g.buildAt ≠ x.c + 1) ∧
          (t.route r).due ≠ some .wrap) ∧
        (g.enabled = true → ticks → g.period ≤ x.c + 1 → t.route r = { x with due := some .wrap }) ∧
        ((g.enabled = false ∨ ¬ticks) → t.route r = x)

/-- A route event that is not due changes nothing, and one that is due comes to the same whether its command is taken before
the next decisecond ends or left to be settled by it. Both are the model's choice (log 7). -/
def Obligations.RouteEventsAreTakenWhenDue : Prop :=
  ∀ (s : State) (r : RouteId), s.resetN = .high →
    ((s.route r).due ≠ some .wrap → exec (.wrap r) s = .next s) ∧
    ((s.route r).due ≠ some .build → exec (.buildPoint r) s = .next s) ∧
    ((s.route r).due ≠ some .departure → exec (.departurePoint r) s = .next s) ∧
    ((s.route r).due ≠ some .skipped → exec (.skippedPoint r) s = .next s) ∧
    (s.mode = .active → (∀ k, k ≠ r → (s.route k).due = none) → ∀ c,
      (c = .buildPoint r ∨ c = .departurePoint r ∨ c = .skippedPoint r ∨ c = .wrap r) →
      ∃ t, exec c s = .next t ∧ exec .decisecondEnd t = exec .decisecondEnd s)

/-- WRAP: C becomes 0, the lap number increases by 1 modulo 65536, and pending timing is taken up; the point at C = 0 falls due
unless the route is now disabled (R84). R84 judges that point at the wrap; that it falls due, and waits in `due` for its own command,
is the model's choice (log 7). SKIPPED_POINT: the laps-skipped counter increases by 1, stopping at 65535 (R89). No other route and
nothing else changes. -/
def Obligations.WrapAndSkippedPointMoveOneRoute : Prop :=
  ∀ (s : State) (r : RouteId), s.resetN = .high →
    ((s.route r).due = some .wrap →
      ∃ t, exec (.wrap r) s = .next t ∧ t = { s with routes := t.routes } ∧ OnlyRoute s t r ∧
        let x := s.route r
        let g := x.next.getD x.cfg.timing
        t.route r = { x with cfg := { x.cfg with timing := g }, next := none, c := 0, lap := x.lap + 1,
                             due := (t.route r).due } ∧
        (g.enabled = false → (t.route r).due = none) ∧
        (g.enabled = true → 0 < g.period →
          ((t.route r).due = some .skipped ↔ g.buildAt = 0 ∧ g.departAt = 0) ∧
          ((t.route r).due = some .build ↔ g.buildAt = 0 ∧ g.departAt ≠ 0) ∧
          ((t.route r).due = some .departure ↔ g.departAt = 0 ∧ g.buildAt ≠ 0) ∧
          (t.route r).due ≠ some .wrap)) ∧
    ((s.route r).due = some .skipped →
      ∃ t, exec (.skippedPoint r) s = .next t ∧ t = { s with routes := t.routes } ∧ OnlyRoute s t r ∧
        t.route r = { s.route r with skippedCount := min ((s.route r).skippedCount + 1) 65535, due := none })

/-- DEPARTURE_POINT (R86, R87, R90): each live manifest of the route, oldest built first, has its departure points seen raised by 1,
stopping at 2. Not yet departed at 1, the route goes late, once; ON_ROUTE at 2 and not yet reported, the manifest is overdue. Each
raises its notice, in the order of the manifests; with none live nothing is judged. -/
def Obligations.DeparturePointJudgesTheManifest : Prop :=
  ∀ (s : State) (r : RouteId), s.resetN = .high → (s.route r).due = some .departure →
    let x := s.route r
    let live := [x.older, x.older.other].filter fun h => decide ((s.buffer r h).state ≠ .free)
    let seen (h : Half) : Nat := min ((s.buffer r h).seen + 1) 2
    let missed (h : Half) : Bool := decide ((s.buffer r h).state ≠ .onRoute ∧ seen h = 1)
    let ranOver (h : Half) : Bool :=
      decide ((s.buffer r h).state = .onRoute ∧ seen h = 2 ∧ (s.buffer r h).overdue = false)
    let goesLate : Option Half := if x.late then none else live.find? missed
    let told := live.filterMap fun h =>
      let b := s.buffer r h
      if goesLate = some h then some (Event.late r b.lap b.state)
      else if ranOver h then some (Event.overdue r b.lap x.pointer) else none
    ∃ t, exec (.departurePoint r) s = .next t ∧ t = { s with routes := t.routes, queues := t.queues } ∧ OnlyRoute s t r ∧
      t.queues = (told.foldl State.raise s).queues ∧
      t.route r = { x with
        due := none, buffers := (t.route r).buffers, late := x.late || goesLate.isSome
        lateCount := if goesLate.isSome then min (x.lateCount + 1) 65535 else x.lateCount
        overdueCount := if live.countP ranOver = 0 then x.overdueCount else min (x.overdueCount + live.countP ranOver) 65535 } ∧
      ∀ h, t.buffer r h = if (s.buffer r h).state = .free then s.buffer r h
        else { s.buffer r h with seen := seen h, overdue := (s.buffer r h).overdue || ranOver h }

/-- ACK_LATE, PRESET_LATE and SET_HOLD write one flag of one route and answer what it was; from SP in COLD ACK_LATE is refused;
a route above 5 is refused (R91, R92, R93). -/
def Obligations.RouteFlagsAreWrittenAlone : Prop :=
  ∀ s : State, s.resetN = .high →
    (∀ (p : Port) (n : Nat), p = .ep ∨ (p = .sp ∧ s.mode ≠ .cold) →
      (∀ r : RouteId, n = r.val → ∃ t, exec (.ackLate p n) s = .next t ∧ Answered s t p .ok (.was (s.route r).late) ∧
        t = { s with routes := t.routes, ports := t.ports } ∧ OnlyRoute s t r ∧
        t.route r = { s.route r with late := false }) ∧
      (5 < n → ∃ t, exec (.ackLate p n) s = .next t ∧ OnlyAnswered s t p .badArg .empty)) ∧
    (s.mode = .cold → ∀ n, ∃ t, exec (.ackLate .sp n) s = .next t ∧ OnlyAnswered s t .sp .notActive .empty) ∧
    (∀ r : RouteId, ∃ t, exec (.presetLate .ep r.val) s = .next t ∧ Answered s t .ep .ok (.was (s.route r).late) ∧
      t = { s with routes := t.routes, ports := t.ports } ∧ OnlyRoute s t r ∧
      t.route r = { s.route r with late := true }) ∧
    (∀ (r : RouteId) (on : Bool), ∃ t, exec (.setHold .ep r.val on) s = .next t ∧
      Answered s t .ep .ok (.was (s.route r).hold) ∧ t = { s with routes := t.routes, ports := t.ports } ∧
      OnlyRoute s t r ∧ t.route r = { s.route r with hold := on }) ∧
    ∀ n, 5 < n → ∀ on, (∃ t, exec (.presetLate .ep n) s = .next t ∧ OnlyAnswered s t .ep .badArg .empty) ∧
      ∃ t, exec (.setHold .ep n on) s = .next t ∧ OnlyAnswered s t .ep .badArg .empty

/-! ## Ports -/

/-- CS_N_FALL, TRANSACTION_END and FRAME_DISCARD: a fall starts a transaction at CODE; a rise ends it in any state, counting a
discarded frame in LENGTH and PAYLOAD only; a discarded frame changes nothing beyond its port unit, whose frame-error counter
rises by 1, stopping at 65535 (R164, R165; what the commands do off their own condition is log 4). -/
def Obligations.TransactionsStartAndEnd : Prop :=
  ∀ (s : State) (p : Port), s.resetN = .high →
    let u := s.port p
    let errors := min (u.frameErrors + 1) 65535
    (∃ t, exec (.csNFall p) s = .next t ∧ t = { s with ports := t.ports } ∧ (∀ q, q ≠ p → t.port q = s.port q) ∧
      t.port p = { selected := true, rx := .code, sent := none, frameErrors := u.frameErrors }) ∧
    (u.selected = true → ∃ t, exec (.transactionEnd p) s = .next t ∧ t = { s with ports := t.ports } ∧
      (∀ q, q ≠ p → t.port q = s.port q) ∧
      let lost := (∃ c, u.rx = .length c) ∨ ∃ c n got, u.rx = .payload c n got
      (lost → t.port p = { selected := false, rx := .code, sent := none, frameErrors := errors }) ∧
      (¬lost → t.port p = { selected := false, rx := .code, sent := none, frameErrors := u.frameErrors })) ∧
    (u.selected = false → exec (.transactionEnd p) s = .next s) ∧
    (∃ t, exec (.frameDiscard p .chipSelect) s = .next t ∧ t = { s with ports := t.ports } ∧
      (∀ q, q ≠ p → t.port q = s.port q) ∧
      t.port p = { selected := false, rx := .code, sent := none, frameErrors := errors }) ∧
    ∀ n, ∃ t, exec (.frameDiscard p (.overlong n)) s = .next t ∧ t = { s with ports := t.ports } ∧
      (∀ q, q ≠ p → t.port q = s.port q) ∧
      t.port p = { selected := true, rx := .discard, sent := some 0xFF, frameErrors := errors }

/-- BYTE_RECEIVED with no frame completed: the receive state moves as the table of R164 gives, fill is sent but for the bytes of
a response, and a declared length above 60 discards the frame (R165); only the port unit changes. The bytes of a response are those
of 10.5: status code, payload length, payload, and a notice record is 12 bytes. That the records stand last in the payload of
READ_NOTICES is the model's choice; what stands before them, and every other payload's layout, is free (log 6). That a port without a
transaction receives nothing is the model's choice too (log 4). -/
def Obligations.BytesMoveTheReceiveState : Prop :=
  (∀ (s : State) (p : Port) (b : Byte), s.resetN = .high →
    let u := s.port p
    (u.selected = false → exec (.byteReceived p b) s = .next s) ∧
    (u.selected = true → ∀ v : PortUnit,
      (u.rx = .code ∧ v = { u with rx := .length b, sent := some 0xFF }) ∨
      ((∃ c, u.rx = .length c ∧ 1 ≤ b.toNat ∧ b.toNat ≤ 60 ∧ v = { u with rx := .payload c b.toNat [], sent := some 0xFF })) ∨
      ((∃ c, u.rx = .length c) ∧ 60 < b.toNat ∧
        v = { u with rx := .discard, sent := some 0xFF, frameErrors := min (u.frameErrors + 1) 65535 }) ∨
      (∃ c n got, u.rx = .payload c n got ∧ got.length + 1 < n ∧
        v = { u with rx := .payload c n (got ++ [b]), sent := some 0xFF }) ∨
      (∃ f n, u.rx = .response f n ∧ v = { u with rx := .response f (n + 1), sent := some (f.bytes.getD n 0xFF) }) ∨
      (u.rx = .discard ∧ v = { u with sent := some 0xFF }) →
      ∃ t, exec (.byteReceived p b) s = .next t ∧ t = { s with ports := t.ports } ∧ t.port p = v ∧
        ∀ q, q ≠ p → t.port q = s.port q)) ∧
  (∀ f : Response, ∃ payload, payload.length ≤ 250 ∧
    f.bytes = (match f.status with
      | .ok => 0x00 | .mismatch => 0x01 | .atMax => 0x02 | .notPermitted => 0x03 | .notActive => 0x04 | .badArg => 0x05
      | .wrongState => 0x06 | .notLoaded => 0x07 | .trainBusy => 0x08 | .wrongStop => 0x09 | .behind => 0x0A
      | .unknownStop => 0x0B | .listFull => 0x0C | .outOfOrder => 0x0D | .stageLocked => 0x0E | .stillPresent => 0x0F
      | .notReady => 0x10 | .notFound => 0x11 | .unknown => 0x12) :: BitVec.ofNat 8 payload.length :: payload ∧
    (f.body = .empty → payload = []) ∧
    ∀ marker n (items : List Notice), f.body = .notices marker n items → ∃ header,
      payload = (header ++ items.flatMap Notice.record).take 250) ∧
  ∀ n : Notice,
    let manifest (b : BufferState) (k : Nat) : Prop :=
      (b = .offered ∧ k = 1) ∨ (b = .picking ∧ k = 2) ∨ (b = .loaded ∧ k = 3) ∨ (b = .onRoute ∧ k = 4) ∨ b = .free
    let mode (m : DeviceMode) : Nat := match m with | .cold => 0 | .standby => 1 | .active => 2
    ∃ (code subject urgent : Byte) (number : BitVec 16) (a b : Nat),
      n.record = [code, subject, number.extractLsb' 8 8, number.extractLsb' 0 8, BitVec.ofNat 8 a, urgent,
        BitVec.ofNat 8 (b / 256), BitVec.ofNat 8 b, n.time.extractLsb' 24 8, n.time.extractLsb' 16 8,
        n.time.extractLsb' 8 8, n.time.extractLsb' 0 8] ∧
      match n.event with
      | .pickReady r lap k => code = 0x01 ∧ subject = BitVec.ofNat 8 r.val ∧ number = lap ∧ urgent = 0 ∧ a = k ∧ b = 0
      | .lapMissed r lap st => code = 0x02 ∧ subject = BitVec.ofNat 8 r.val ∧ number = lap ∧ urgent = 0 ∧ manifest st a ∧ b = 0
      | .late r lap st => code = 0x03 ∧ subject = BitVec.ofNat 8 r.val ∧ number = lap ∧ urgent = 1 ∧ manifest st a ∧ b = 0
      | .overdue r lap k => code = 0x04 ∧ subject = BitVec.ofNat 8 r.val ∧ number = lap ∧ urgent = 1 ∧ a = k ∧ b = 0
      | .shortfall i seq k => code = 0x05 ∧ subject = BitVec.ofNat 8 i.val ∧ number = seq ∧ urgent = 1 ∧ a = 0 ∧ b = k
      | .seqStarved i seq why => code = 0x06 ∧ subject = BitVec.ofNat 8 i.val ∧ number = seq ∧ urgent = 1 ∧ b = 0 ∧
        a = match why with | .unanchored => 1 | .unannounced => 2 | .notDelivered => 3
      | .seqBreak l seq pulled orphans => code = 0x07 ∧ subject = (match l with | .a => 0 | .b => 1) ∧ number = seq ∧
        urgent = 0 ∧ a = pulled ∧ b = orphans
      | .uncovered i k => code = 0x08 ∧ subject = BitVec.ofNat 8 i.val ∧ number = 0 ∧ urgent = 0 ∧ a = k ∧ b = 0
      | .queueFull i cause k => code = 0x09 ∧ subject = BitVec.ofNat 8 i.val ∧ number = 0 ∧ urgent = 1 ∧ b = k ∧
        a = match cause with | .order => 1 | .topup => 2 | .return => 3
      | .queueHigh i k => code = 0x0A ∧ subject = BitVec.ofNat 8 i.val ∧ number = 0 ∧ urgent = 0 ∧ a = k ∧ b = 0
      | .discrepancy i kind policy => code = 0x0B ∧ subject = BitVec.ofNat 8 i.val ∧ number = 0 ∧ urgent = 0 ∧
        a = (match kind with | .under => 1 | .over => 2) ∧ b = match policy with | .report => 0 | .resync => 1 | .withhold => 2
      | .linesReturned r lap cause k => code = 0x0C ∧ subject = BitVec.ofNat 8 r.val ∧ number = lap ∧ urgent = 0 ∧ b = k ∧
        a = match cause with | .shortPick => 1 | .skipped => 2 | .lapEnd => 3 | .cancel => 4
      | .planApplied line seq m k => code = 0x0D ∧ subject = (match line with | none => 0xFF | some .a => 0 | some .b => 1) ∧
        number = seq ∧ urgent = 0 ∧ b = k ∧ a = match m with | .immediate => 0 | .atMark => 1
      | .modeChanged new old => code = 0x0E ∧ subject = 0xFF ∧ number = 0 ∧ urgent = 0 ∧ a = mode new ∧ b = mode old

/-- The last byte of a frame hands its request over, tested in the order of R166: an unknown code, a request the port may not
send, a payload whose length is not the one the request's fields take; then the request is one event, the same as its own command,
with the fields its payload spells. UNKNOWN is answered for any code R166 does not list, whatever the payload. A refusal changes
nothing else. The manual gives no layout but DROP's label, so which length a request's fields take, one for each request but the five
staging ones, whose length may vary with the operation and its number of entries, and what the bytes spell, are free; that a request
without fields takes length 0, every other one 1 to 60, and DROP one route byte and the label, is the model's reading (log 5). -/
def Obligations.CompleteFrameIsItsRequest : Prop :=
  let bare := [Request.readStatus, .cancelApply, .start, .stop, .runReset, .readCounters]
  (∀ (s : State) (p : Port), s.resetN = .high → (s.port p).selected = true →
    (∀ (i : Instr) (q : Request), requestIn? i = some (p, q) → q ∈ bare →
      (s.port p).rx = .length (requestCode q) → exec (.byteReceived p 0) s = exec i s) ∧
    (∀ (q : Request) (got : List Byte) (b : Byte), q ∈ bare → permitted p q = true →
      (s.port p).rx = .payload (requestCode q) (got.length + 1) got →
      ∃ t, exec (.byteReceived p b) s = .next t ∧ OnlyAnswered s t p .badArg .empty) ∧
    (∀ r a b c d e f : Byte, (s.port p).rx = .payload 0x22 7 [r, a, b, c, d, e] →
      exec (.byteReceived p f) s = exec (.drop p r.toNat ⟨a ++ b ++ c ++ d, e ++ f⟩) s) ∧
    (∀ q : Request, permitted p q = false →
      ((s.port p).rx = .length (requestCode q) →
        ∃ t, exec (.byteReceived p 0) s = .next t ∧ OnlyAnswered s t p .notPermitted .empty) ∧
      ∀ got b, (s.port p).rx = .payload (requestCode q) (got.length + 1) got →
        ∃ t, exec (.byteReceived p b) s = .next t ∧ OnlyAnswered s t p .notPermitted .empty) ∧
    (∀ (code : Byte) (payload : List Byte), let c := code.toNat
      ¬((1 ≤ c ∧ c ≤ 0x07) ∨ (0x10 ≤ c ∧ c ≤ 0x12) ∨ (0x20 ≤ c ∧ c ≤ 0x24) ∨ (0x30 ≤ c ∧ c ≤ 0x34) ∨
        (0x40 ≤ c ∧ c ≤ 0x52)) →
      (∃ t, exec (.unknown p code payload) s = .next t ∧ OnlyAnswered s t p .unknown .empty) ∧
      ((s.port p).rx = .length code → exec (.byteReceived p 0) s = exec (.unknown p code []) s) ∧
      ∀ got b, (s.port p).rx = .payload code (got.length + 1) got →
        exec (.byteReceived p b) s = exec (.unknown p code (got ++ [b])) s)) ∧
  ∀ q : Request, q ∉ bare →
    ∃ (len : PayloadForm → Nat) (command : Port → List Byte → Instr),
      (∀ form, 1 ≤ len form ∧ len form ≤ 60) ∧ (q = .drop → len .plain = 7) ∧
      (∀ p w, requestIn? (command p w) = some (p, q)) ∧
      ∀ (s : State) (p : Port), s.resetN = .high → (s.port p).selected = true → permitted p q = true →
        ((s.port p).rx = .length (requestCode q) →
          ∃ t, exec (.byteReceived p 0) s = .next t ∧ OnlyAnswered s t p .badArg .empty) ∧
        ∀ (got : List Byte) (b : Byte), (s.port p).rx = .payload (requestCode q) (got.length + 1) got →
          let form : PayloadForm := match command p (got ++ [b]) with
            | .stageSlot _ _ .read | .stageUsage _ _ _ _ .read | .stageRoute _ _ .read | .stageWindow _ _ .read
            | .stageGlobals _ .read => .read
            | .stageSlot _ _ (.write f) => .write (if f.start = none then 0 else 1)
            | .stageUsage _ _ _ _ (.write values) => .write values.length
            | .stageRoute _ _ (.write f) => .write f.stops.length
            | .stageWindow _ _ (.write _) | .stageGlobals _ (.write _) => .write 0
            | _ => .plain
          (got.length + 1 = len form → exec (.byteReceived p b) s = exec (command p (got ++ [b])) s) ∧
          (got.length + 1 ≠ len form →
            ∃ t, exec (.byteReceived p b) s = .next t ∧ OnlyAnswered s t p .badArg .empty)

/-! ## Notices -/

/-- A copy arriving at a queue, under HALT (R169) and under STREAM (R170); and the attention output is asserted exactly while the
queue holds at least N notices or any urgent one, after a copy, a read, a run reset and a SET_NOTICE_MODE (R173). -/
def Obligations.NoticeCopiesArriveByMode : Prop :=
  (∀ (q : NoticeQueue) (n : Notice),
    let lost := min (q.lost + 1) 65535
    (q.mode = .halt → q.marker = false → q.items.length < 16 →
      q.arrive n = { q with items := q.items ++ [n], attn := (q.arrive n).attn }) ∧
    (q.mode = .halt → q.marker = false → 16 ≤ q.items.length →
      q.arrive n = { q with marker := true, lost := lost, attn := (q.arrive n).attn }) ∧
    (q.mode = .halt → q.marker = true → q.arrive n = { q with lost := lost, attn := (q.arrive n).attn }) ∧
    (q.mode = .stream → q.items.length < 16 →
      q.arrive n = { q with items := q.items ++ [n], attn := (q.arrive n).attn }) ∧
    (q.mode = .stream → 16 ≤ q.items.length →
      q.arrive n = { q with items := q.items.drop 1 ++ [n], marker := true, lost := lost, attn := (q.arrive n).attn })) ∧
  ∀ (q : NoticeQueue) (n : Notice) (k : Nat),
    let right (x : NoticeQueue) : Prop :=
      x.attn = true ↔ x.threshold ≤ x.items.length ∨ ∃ y ∈ x.items, y.event.urgent = true
    right (q.arrive n) ∧ right (q.read k) ∧ right q.runReset ∧
    ∀ (s : State) (p : Port) (m : QueueMode), s.resetN = .high → 1 ≤ k → k ≤ 4 →
      ∃ t, exec (.setNoticeMode p (some m) k) s = .next t ∧ right (t.queue p)

/-- Raising a notice: each port its kind is routed to gets a copy stamped with the present plant time, the other ports' queues
and everything else are as they were; the kinds' ports and urgency are the table's of 10.5 (R168). -/
def Obligations.NoticesGoToTheirPorts : Prop :=
  (∀ (s : State) (e : Event), s.raise e = { s with queues := (s.raise e).queues } ∧
    ∀ p, (s.raise e).queue p = if e.routedTo p then (s.queue p).arrive ⟨e, s.plant⟩ else s.queue p) ∧
  ∀ (e : Event) (p : Port),
    let k := e.code.toNat
    (e.routedTo p = true ↔ k = 0x0E ∨
      (p = .sp ∧ k ∈ [0x01, 0x02, 0x03, 0x05, 0x06, 0x07, 0x0A, 0x0B, 0x0C]) ∨
      (p = .ep ∧ k ∈ [0x02, 0x03, 0x04, 0x05, 0x06, 0x07, 0x08, 0x09, 0x0B, 0x0D]) ∨
      (p = .tp ∧ k ∈ [0x01, 0x04]) ∨ (p = .lp ∧ k = 0x0D)) ∧
    (e.urgent = true ↔ k ∈ [0x03, 0x04, 0x05, 0x06, 0x09])

/-- READ_NOTICES and SET_NOTICE_MODE act on the asking port's own queue, in every device mode, and the attention output is judged
again at once (R171 to R173). -/
def Obligations.QueueRequestsServeTheAskingPort : Prop :=
  ∀ (s : State) (p : Port), s.resetN = .high →
    let q := s.queue p
    let calls (n : Nat) (items : List Notice) : Bool := decide (n ≤ items.length) || items.any fun y => y.event.urgent
    (∀ n, 1 ≤ n → n ≤ 8 → ∃ t, exec (.readNotices p n) s = .next t ∧
      Answered s t p .ok (.notices q.marker (q.items.length - n) (q.items.take n)) ∧
      t = { s with queues := t.queues, ports := t.ports } ∧ (∀ k, k ≠ p → t.queue k = s.queue k) ∧
      t.queue p = { q with items := q.items.drop n, marker := q.marker && decide (n < q.items.length),
                           attn := calls q.threshold (q.items.drop n) }) ∧
    (∀ n m, 1 ≤ n → n ≤ 4 → ∃ t, exec (.setNoticeMode p (some m) n) s = .next t ∧
      Answered s t p .ok (.noticeMode m n q.items.length q.marker) ∧
      t = { s with queues := t.queues, ports := t.ports } ∧ (∀ k, k ≠ p → t.queue k = s.queue k) ∧
      t.queue p = { q with mode := m, threshold := n, attn := calls n q.items }) ∧
    (∀ n, n = 0 ∨ 8 < n → ∃ t, exec (.readNotices p n) s = .next t ∧ OnlyAnswered s t p .badArg .empty) ∧
    (∀ n m, m = none ∨ n = 0 ∨ 4 < n → ∃ t, exec (.setNoticeMode p m n) s = .next t ∧
      OnlyAnswered s t p .badArg .empty)

/-! ## Reads -/

/-- READ_STATUS and READ_COUNTERS report the fields R174 and R182 list, as they stand, and change nothing (R40, R81). -/
def Obligations.StatusAndCountersAreReported : Prop :=
  ∀ (s : State) (p : Port), s.resetN = .high →
    let q := s.queue p
    let line (l : Line) : LineReport := {
      anchored := (s.seq l).last != none, last := (s.seq l).last, count := (s.seq l).units.length,
      head := (s.seq l).units[0]?.map (·.seq), clock := s.clock l }
    let count (f : Slot → Bool) : Nat := (List.finRange 192).countP fun i => f (s.slot i)
    (∃ t, exec (.readStatus p) s = .next t ∧ OnlyAnswered s t p .ok (.status {
      mode := s.mode, applyState := s.applyState, plant := s.plant, lines := ⟨line .a, line .b⟩,
      queueCount := q.items.length, urgentCount := q.items.countP (·.event.urgent), queueMode := q.mode,
      threshold := q.threshold, marker := q.marker, attn := q.attn, frameErrors := (s.port p).frameErrors,
      lost := q.lost })) ∧
    ∃ t, exec (.readCounters .ep) s = .next t ∧ OnlyAnswered s t .ep .ok (.counters {
      returnsDropped := s.demand.returnsDropped, ordersRefused := s.demand.ordersRefused,
      routes := (List.finRange 6).map fun r => {
        late := (s.route r).lateCount, overdue := (s.route r).overdueCount, held := (s.route r).heldCount,
        missed := (s.route r).missedCount, skipped := (s.route r).skippedCount, mismatches := (s.route r).mismatches },
      ports := ⟨⟨(s.port .lp).frameErrors, (s.queue .lp).lost⟩, ⟨(s.port .tp).frameErrors, (s.queue .tp).lost⟩,
        ⟨(s.port .sp).frameErrors, (s.queue .sp).lost⟩, ⟨(s.port .ep).frameErrors, (s.queue .ep).lost⟩⟩,
      short := count (·.short), blocked := count (·.blocked), discrepant := count (·.discrepant != none),
      withheld := count (·.withheld) })

/-- READ_SLOT reports a slot's whole record, with IP as the inventory position of a KANBAN slot and 0 for a SEQUENCED one (R21);
READ_QUEUE reports the queue's counts and up to 8 lines from a first position on, each with its place and rank; READ_ROUTE
reports the route's fields, the windows that name it and its buffers; none changes anything (R43, R61, R73, R95, R117, R139). -/
def Obligations.SlotQueueAndRouteAreReported : Prop :=
  ∀ (s : State) (p : Port), s.resetN = .high →
    (∀ i : SlotId, let x := s.slot i
      ∃ t, exec (.readSlot p i.val) s = .next t ∧
        ((x.cfg.kind = .kanban → OnlyAnswered s t p .ok
          (.slot { slot := x, ip := x.oh + x.ordered * x.cfg.cq * 1000, marks := none })) ∧
        (x.cfg.kind = .sequenced → OnlyAnswered s t p .ok (.slot { slot := x, ip := 0, marks := x.marks })))) ∧
    (∀ n, 191 < n → ∃ t, exec (.readSlot p n) s = .next t ∧ OnlyAnswered s t p .badArg .empty) ∧
    (∀ n, n ≤ 127 → let d := s.demand
      ∃ t lines, exec (.readQueue p n) s = .next t ∧ OnlyAnswered s t p .ok (.queue {
        count := d.lines.length, watermark := d.watermark, ageStep := d.ageStep, highArmed := d.highArmed,
        fullArmed := d.fullArmed, returnsDropped := d.returnsDropped, ordersRefused := d.ordersRefused, lines := lines }) ∧
        lines.length = min 8 (d.lines.length - n) ∧
        ∀ (k : Nat) (x : QueueLineReport), lines[k]? = some x →
          x.position = n + k ∧ d.lines[n + k]? = some x.line ∧ x.rank =
            let base := match x.line.cls with | .urgent => 1 | .kanban => 2 | .topup => 3
            if d.ageStep = 0 then base else max 1 (base - x.line.passes / d.ageStep)) ∧
    (∀ r : RouteId, let x := s.route r
      ∃ t v, exec (.readRoute p r.val) s = .next t ∧ OnlyAnswered s t p .ok (.route v) ∧
        v.cfg = x.cfg ∧ v.next = x.next ∧ v.c = x.c ∧ v.lap = x.lap ∧ v.late = x.late ∧ v.hold = x.hold ∧
        v.lateCount = x.lateCount ∧ v.overdueCount = x.overdueCount ∧ v.heldCount = x.heldCount ∧
        v.missedCount = x.missedCount ∧ v.skippedCount = x.skippedCount ∧
        (∀ (k : Fin 4) (w : Window), (k.val, w) ∈ v.diverts ↔ s.diverts[k] = w ∧ w.route = r) ∧
        (∀ (k : Fin 12) (w : Window), (k.val, w) ∈ v.windows ↔ s.coverage[k] = w ∧ w.route = r) ∧
        (∀ h, v.buffers.get h = {
          number := if h = .lower then 2 * r.val else 2 * r.val + 1, state := (s.buffer r h).state,
          lap := if (s.buffer r h).state = .free then none else some (s.buffer r h).lap }) ∧
        (∀ h, (s.buffer r h).state ≠ .free → ((s.buffer r h.other).state ≠ .free → x.older = h) →
          v.older = some (v.buffers.get h).number) ∧
        ((∀ h, (s.buffer r h).state = .free) → v.older = none) ∧
        v.pointer = x.pointer ∧ v.current = x.current ∧ v.mismatches = x.mismatches) ∧
    (∀ n, 127 < n → ∃ t, exec (.readQueue p n) s = .next t ∧ OnlyAnswered s t p .badArg .empty) ∧
    ∀ n, 5 < n → ∃ t, exec (.readRoute p n) s = .next t ∧ OnlyAnswered s t p .badArg .empty

/-- A request that names a route and a lap reaches the live manifest of that route with that lap, and of two the older; so does
the search for a route's manifest in a state (R97, R128). -/
def Obligations.RouteAndLapNameTheManifest : Prop :=
  ∀ (s : State) (r : RouteId) (lap : Lap),
    let fits (h : Half) : Prop := (s.buffer r h).state ≠ .free ∧ (s.buffer r h).lap = lap
    (∀ h, s.manifest r lap = some h ↔ fits h ∧ (fits h.other → (s.route r).older = h)) ∧
    (s.manifest r lap = none ↔ ¬fits .lower ∧ ¬fits .upper) ∧
    ∀ st : BufferState, st ≠ .free →
      let stands (h : Half) : Prop := (s.buffer r h).state = st
      (∀ h, s.manifestIn r st = some h ↔ stands h ∧ (stands h.other → (s.route r).older = h)) ∧
      (s.manifestIn r st = none ↔ ¬stands .lower ∧ ¬stands .upper)

/-- READ_MANIFEST, READ_PICK_LIST and READ_STOP_LINES report the manifest as it stands and up to 8 of its lines, in manifest order:
from a first line on, or the first 8 open at the stop. The pick list gives a rack's units and no class, the stop lines a rack's first
seq alone. Nothing changes; the refusals come in the order of their rules (R116, R120, R137, R138). -/
def Obligations.ManifestsAreReported : Prop :=
  ∀ s : State, s.resetN = .high →
    (∀ (p : Port) (r : RouteId) (lap : Lap) (n : Nat) (h : Half), n ≤ 31 → s.manifest r lap = some h →
      let b := s.buffer r h
      (∃ t lines, exec (.readManifest p r.val lap n) s = .next t ∧ OnlyAnswered s t p .ok (.manifest {
        number := if h = .lower then 2 * r.val else 2 * r.val + 1, route := r, lap := b.lap, builtAt := b.builtAt,
        state := b.state, seen := b.seen, overdue := b.overdue, load := b.load, lineCount := b.lines.length,
        hasStops := b.stops != none, lines := lines }) ∧
        lines.length = min 8 (b.lines.length - n) ∧
        ∀ (k : Nat) (e : Nat × ManifestLine), lines[k]? = some e → e.1 = n + k ∧ b.lines[n + k]? = some e.2) ∧
      ∃ t lines, exec (.readPickList .sp r.val lap n) s = .next t ∧ OnlyAnswered s t .sp .ok (.pickList {
        state := b.state, lineCount := b.lines.length, load := b.load, lines := lines }) ∧
        lines.length = min 8 (b.lines.length - n) ∧
        ∀ (k : Nat) (e : PickLine), lines[k]? = some e → ∃ x, b.lines[n + k]? = some x ∧ e = {
          number := n + k, slot := x.slot, part := x.part, size := x.size, stop := x.stop,
          load := match x.load with | .bin _ => .bin | .rack first last positions => .rack first last positions
          stopId := (s.route r).cfg.stops[x.stop]?, planned := x.planned, held := x.held, state := x.state }) ∧
    (∀ (r : RouteId) (h : Half), s.manifestIn r .onRoute = some h →
      let x := s.route r
      let b := s.buffer r h
      let stop := x.current.getD x.pointer
      let isOpen (y : ManifestLine) : Bool := y.stop == stop && y.state == .planned
      ∃ t lines, exec (.readStopLines .tp r.val) s = .next t ∧ OnlyAnswered s t .tp .ok (.stopLines {
        lap := b.lap, pointer := x.pointer, isNext := x.current == none, stop := stop, stopId := (b.stops.getD [])[stop]?,
        openCount := b.lines.countP isOpen, lines := lines }) ∧
        lines = (((List.range b.lines.length).filterMap fun k => match b.lines[k]? with
          | none => none
          | some y => if isOpen y then some {
              number := k, load := match y.load with | .bin _ => .bin | .rack first _ _ => .rack first
              slot := y.slot, part := y.part, held := y.held, delivered := y.delivered } else none).take 8)) ∧
    (∀ (p : Port) (n : Nat) (lap : Lap) (m : Nat), 5 < n ∨ 31 < m →
      ∃ t, exec (.readManifest p n lap m) s = .next t ∧ OnlyAnswered s t p .badArg .empty) ∧
    (∀ (n : Nat) (lap : Lap) (m : Nat), 5 < n →
      (∃ t, exec (.readPickList .sp n lap m) s = .next t ∧ OnlyAnswered s t .sp .badArg .empty) ∧
      ∃ t, exec (.readStopLines .tp n) s = .next t ∧ OnlyAnswered s t .tp .badArg .empty) ∧
    (∀ (p : Port) (r : RouteId) (lap : Lap) (m : Nat), s.manifest r lap = none →
      (m ≤ 31 → ∃ t, exec (.readManifest p r.val lap m) s = .next t ∧ OnlyAnswered s t p .notFound .empty) ∧
      ∃ t, exec (.readPickList .sp r.val lap m) s = .next t ∧ OnlyAnswered s t .sp .notFound .empty) ∧
    (∀ (r : RouteId) (lap : Lap) (m : Nat) (h : Half), s.manifest r lap = some h → 31 < m →
      ∃ t, exec (.readPickList .sp r.val lap m) s = .next t ∧ OnlyAnswered s t .sp .badArg .empty) ∧
    ∀ r : RouteId, s.manifestIn r .onRoute = none →
      ∃ t, exec (.readStopLines .tp r.val) s = .next t ∧ OnlyAnswered s t .tp .wrongState .empty

/-! ## The line controller's requests -/

/-- Comparing sequence numbers modulo 65536: after is a difference of 1 to 32767, so of two numbers 32768 apart neither is after
the other, and never is each after the other (R25). -/
def Obligations.SequenceNumbersCompareModulo : Prop :=
  ∀ x y : SeqNo,
    (seqAfter x y = true ↔ 1 ≤ (x.toNat + 65536 - y.toNat) % 65536 ∧ (x.toNat + 65536 - y.toNat) % 65536 ≤ 32767) ∧
    ((x.toNat + 65536 - y.toNat) % 65536 = 32768 → seqAfter x y = false ∧ seqAfter y x = false) ∧
    (seqAfter x y = true → seqAfter y x = false)

/-- ANNOUNCE, by the tests of R27 in their order: accepted, it appends one unit and sets last announced, and on an unanchored
line gives every SEQUENCED slot of the line, in any status, both marks at seq - 1; refused, it changes nothing and answers last
announced and the count, where a line was named (log 11). -/
def Obligations.AnnounceAppendsInOrder : Prop :=
  ∀ (s : State) (l : Line) (seq : SeqNo) (n : Nat) (mark : Bool), s.resetN = .high →
    let q := s.seq l
    (∀ v : Variant, s.mode = .active → n = v.val → q.units.length < 64 → (q.last = none ∨ q.last = some (seq - 1)) →
      ∃ t, exec (.announce .lp (some l) seq n mark) s = .next t ∧
        Answered s t .lp .ok (.announced (q.units.length + 1)) ∧
        t = { s with slots := t.slots, seqs := t.seqs, ports := t.ports } ∧
        t.seq l = { units := q.units ++ [⟨seq, v, mark⟩], last := some seq } ∧ (∀ k, k ≠ l → t.seq k = s.seq k) ∧
        ∀ i, let x := s.slot i
          if q.last = none ∧ x.cfg.kind = .sequenced ∧ x.cfg.line = l then
            t.slot i = { x with marks := some ⟨seq - 1, seq - 1⟩ }
          else t.slot i = x) ∧
    ((s.mode ≠ .active → ∃ t, exec (.announce .lp (some l) seq n mark) s = .next t ∧
        OnlyAnswered s t .lp .notActive (.sequence q.last q.units.length)) ∧
     (s.mode = .active → 31 < n → ∃ t, exec (.announce .lp (some l) seq n mark) s = .next t ∧
        OnlyAnswered s t .lp .badArg (.sequence q.last q.units.length)) ∧
     (s.mode = .active → n ≤ 31 → 64 ≤ q.units.length → ∃ t, exec (.announce .lp (some l) seq n mark) s = .next t ∧
        OnlyAnswered s t .lp .listFull (.sequence q.last q.units.length)) ∧
     (s.mode = .active → n ≤ 31 → q.units.length < 64 → ∀ last, q.last = some last → seq ≠ last + 1 →
        ∃ t, exec (.announce .lp (some l) seq n mark) s = .next t ∧
          OnlyAnswered s t .lp .outOfOrder (.sequence q.last q.units.length))) ∧
    ∃ t, exec (.announce .lp none seq n mark) s = .next t ∧
      OnlyAnswered s t .lp (if s.mode = .active then .badArg else .notActive) .empty

/-- ADVANCE settles the line's list (R30): HEAD, PULLED or UNANNOUNCED by where seq stands in it; the units up to it leave, last
announced and the other line stay, and the answer carries the case, the units pulled and the count after. A line that is neither A
nor B is refused with BAD_ARG (R30), here with an empty body, which is the model's reading (log 11). -/
def Obligations.AdvanceSettlesTheList : Prop :=
  ∀ (s : State) (l : Line) (seq : SeqNo) (n : Nat) (mark : Bool), s.resetN = .high →
    let units := (s.seq l).units
    (s.mode = .active → n ≤ 31 →
      (∀ k, units.findIdx? (·.seq == seq) = some k → ∃ t, exec (.advance .lp (some l) seq n mark) s = .next t ∧
        Answered s t .lp .ok (.advanced (if k = 0 then .head else .pulled) k (units.length - (k + 1))) ∧
        t.seq l = { units := units.drop (k + 1), last := (s.seq l).last } ∧ ∀ j, j ≠ l → t.seq j = s.seq j) ∧
      ((∀ u ∈ units, u.seq ≠ seq) → ∃ t, exec (.advance .lp (some l) seq n mark) s = .next t ∧
        Answered s t .lp .ok (.advanced .unannounced 0 units.length) ∧ t.seqs = s.seqs)) ∧
    (s.mode ≠ .active → ∀ l, ∃ t, exec (.advance .lp l seq n mark) s = .next t ∧
      OnlyAnswered s t .lp .notActive .empty) ∧
    (s.mode = .active → ∀ l : Option Line, l = none ∨ 31 < n →
      ∃ t, exec (.advance .lp l seq n mark) s = .next t ∧ OnlyAnswered s t .lp .badArg .empty)

/-- ADVANCE draws on the estimates (R12 to R14, R18, R33): every KANBAN slot of the line that is ACTIVE or SUSPENDED is charged the
draw of R13, OH stopping at 0, a draw beyond OH counting a shortfall, and a nonzero draw that leaves OH at 0 setting SHORT, and then
evaluates, slot by slot in ascending number; demand and notices are those of that fold, SEQ_BREAK before it and SEQ_STARVED after it.
A draw of 0 moves nothing, and no other slot's record moves. Stated where the advance takes no apply. -/
def Obligations.AdvanceDrawsOnTheEstimates : Prop :=
  ∀ (s : State) (l : Line) (seq : SeqNo) (v : Variant) (mark : Bool), s.resetN = .high → s.mode = .active →
    ¬s.takesPlan l seq mark →
    let u := s.usage.get l
    let draw (x : Slot) : Nat :=
      (u.quantity v x.cfg.group * (1000 + u.allowance[x.cfg.group]) * (1000 + x.cfg.allowance) + 500) / 1000
    let drawn (x : Slot) : Prop :=
      v ≠ 0 ∧ draw x ≠ 0 ∧ x.cfg.kind = .kanban ∧ x.cfg.status ≠ .inactive ∧ x.cfg.line = l
    let charged (x : Slot) : Slot := { x with
      oh := x.oh - draw x, short := x.short || decide (x.oh ≤ draw x),
      shortfalls := if x.oh < draw x then min (x.shortfalls + 1) 65535 else x.shortfalls }
    let w := (List.finRange 192).foldl (fun (w : State) i =>
      let x := w.slot i
      if drawn x then
        let y := { w with slots := w.slots.set i (charged x) }
        (if x.oh ≤ draw x ∧ x.short = false then y.raise (.shortfall i seq (charged x).shortfalls) else y).evaluate i
      else w) (s.afterSettling l seq)
    ∃ (t : State) (starved : List Event), exec (.advance .lp (some l) seq v.val mark) s = .next t ∧
      t = { s with seqs := w.seqs, slots := w.slots, demand := w.demand, queues := t.queues, ports := t.ports } ∧
      t.queues = (starved.foldl State.raise w).queues ∧ (∀ e ∈ starved, ∃ i why, e = .seqStarved i seq why) ∧
      ∀ i, let x := s.slot i
        let y := t.slot i
        (drawn x → SameButOrders (charged x) y) ∧ (¬drawn x → y = x)

/-- A drawn slot (R14, R15, R18 to R20, R33, R46, R57, R59, R60). A draw above 0 moves OH, SHORT and the shortfalls counter; a slot
that first empties raises one SHORTFALL with the counter after the draw, and the slot's evaluation, with its notices, follows. A
SEQUENCED slot never evaluates. An evaluation of a KANBAN slot places no order and clears ORDER_BLOCKED where the slot is not ACTIVE,
is WITHHELD or stands at its reorder point; otherwise it orders to fill the slot: merged into its OPEN line, created under 112 lines,
or refused with ORDER_BLOCKED set. That a creation raises UNCOVERED ahead of QUEUE_HIGH is the model's reading (log 13). -/
def Obligations.DrawnSlotReportsAndOrders : Prop :=
  (∀ (s : State) (i : SlotId) (d : Nat) (seq : SeqNo),
    let x := s.slot i
    let n := if x.oh < d then min (x.shortfalls + 1) 65535 else x.shortfalls
    let drawn := { s with slots := s.slots.set i { x with
      oh := x.oh - d, shortfalls := n, short := x.short || decide (x.oh ≤ d) } }
    (d = 0 → s.applyDraw i d seq = s) ∧
    (d ≠ 0 → x.oh ≤ d → x.short = false → s.applyDraw i d seq = (drawn.raise (.shortfall i seq n)).evaluate i) ∧
    (d ≠ 0 → d < x.oh ∨ x.short = true → s.applyDraw i d seq = drawn.evaluate i)) ∧
  (∀ (s : State) (i : SlotId), (s.slot i).cfg.kind = .sequenced → s.evaluate i = s) ∧
  ∀ (s : State) (i : SlotId), (s.slot i).cfg.kind = .kanban → (s.slot i).cfg.InRange → (s.slot i).cfg.Bounded →
    let x := s.slot i
    let c := x.cfg
    let t := s.evaluate i
    let position := x.oh + x.ordered * c.cq * 1000
    let n := (c.mc * c.cq * 1000 - position) / (c.cq * 1000)
    t = { s with slots := t.slots, demand := t.demand, queues := t.queues } ∧ OnlySlot s t i ∧
    (c.status ≠ .active ∨ x.withheld = true ∨ c.rop * 1000 ≤ position →
      t.slot i = { x with blocked := false } ∧ t.demand = s.demand ∧ t.queues = s.queues) ∧
    (c.status = .active → x.withheld = false → position < c.rop * 1000 →
      1 ≤ n ∧ x.ordered + n ≤ c.mc ∧
      (∀ d, s.openLine i = some d → t.slot i = { x with ordered := x.ordered + n, blocked := false } ∧
        t.queues = s.queues ∧
        t.demand = { s.demand with lines := s.demand.lines.map fun y =>
          if y.slot = i then { y with containers := y.containers + n, cls := y.cls.better .kanban } else y }) ∧
      (s.openLine i = none → s.demand.lines.length < 112 →
        let uncovered := (s.mapSlot i).isNone
        let high := s.demand.lines.length + 1 = s.demand.watermark ∧ s.demand.highArmed = true
        let u := if uncovered then s.raise (.uncovered i n) else s
        t.slot i = { x with ordered := x.ordered + n, blocked := false } ∧
        t.queues = (if high then u.raise (.queueHigh i s.demand.watermark) else u).queues ∧
        t.demand = { s.demand with
          lines := s.demand.lines ++ [⟨i, n, .kanban, s.plant, 0, uncovered⟩]
          highArmed := s.demand.highArmed && !decide high }) ∧
      (s.openLine i = none → 112 ≤ s.demand.lines.length →
        t.slot i = { x with blocked := true } ∧
        t.queues = (if s.demand.fullArmed then s.raise (.queueFull i .order n) else s).queues ∧
        t.demand = { s.demand with
          ordersRefused := min (s.demand.ordersRefused + 1) 65535, fullArmed := false }))

/-- The starvation test (R33 to R35): an advance that takes no apply raises one SEQ_STARVED, in ascending slot number and after the
draws' notices, for each SEQUENCED slot of the line, ACTIVE or SUSPENDED, that the variant qualifies for and that is UNANCHORED,
UNANNOUNCED or NOT_DELIVERED, the first that holds; it changes nothing else. -/
def Obligations.UnsuppliedUnitsAreReportedStarved : Prop :=
  ∀ (s : State) (l : Line) (seq : SeqNo) (v : Variant) (mark : Bool), s.resetN = .high → s.mode = .active →
    ¬s.takesPlan l seq mark →
    let listed := (s.seq l).units.any (·.seq == seq)
    let starved (i : SlotId) : Option Event :=
      let x := s.slot i
      if x.cfg.kind = .sequenced ∧ x.cfg.status ≠ .inactive ∧ x.cfg.line = l ∧
          0 < (s.usage.get l).quantity v x.cfg.group then
        match x.marks with
        | none => some (.seqStarved i seq .unanchored)
        | some m =>
          if listed = false then some (.seqStarved i seq .unannounced)
          else if seqAfter seq m.delivered then some (.seqStarved i seq .notDelivered)
          else none
      else none
    let drawn := (s.afterSettling l seq).afterDraws l v seq
    ∃ t, exec (.advance .lp (some l) seq v.val mark) s = .next t ∧
      t = { ((List.finRange 192).filterMap starved).foldl State.raise drawn with ports := t.ports } ∧
      ∀ i, (s.slot i).cfg.kind = .sequenced → t.slot i = s.slot i

/-- A PULLED advance that takes no apply first raises one SEQ_BREAK with the units pulled and their orphans, one for each pulled unit
and anchored SEQUENCED slot of the line, ACTIVE or SUSPENDED, that the unit qualifies for and whose delivered-through reaches it
(R31); the draws of the consumed unit, with their notices, and its SEQ_STARVED notices follow (R33). -/
def Obligations.PulledUnitsAreReportedWithTheirOrphans : Prop :=
  ∀ (s : State) (l : Line) (seq : SeqNo) (v : Variant) (mark : Bool) (k : Nat), s.resetN = .high → s.mode = .active →
    ¬s.takesPlan l seq mark → 1 ≤ k → (s.seq l).units.findIdx? (·.seq == seq) = some k →
    let orphan (u : AnnouncedUnit) (i : SlotId) : Bool :=
      let x := s.slot i
      x.cfg.kind == .sequenced && x.cfg.status != .inactive && x.cfg.line == l &&
      decide (0 < (s.usage.get l).quantity u.variant x.cfg.group) &&
      x.marks.any fun m => !seqAfter u.seq m.delivered
    let orphans := (((s.seq l).units.take k).map fun u => (List.finRange 192).countP (orphan u)).sum
    ∃ t, exec (.advance .lp (some l) seq v.val mark) s = .next t ∧
      t.seq l = { units := (s.seq l).units.drop (k + 1), last := (s.seq l).last } ∧ (∀ j, j ≠ l → t.seq j = s.seq j) ∧
      let broken := { s with seqs := t.seqs }.raise (.seqBreak l seq k (min 65535 orphans))
      t = { broken.afterUnit l v seq true with ports := t.ports } ∧
      (v = 0 → (∀ g, (s.usage.get l).quantity 0 g = 0) →
        t = { s with seqs := t.seqs, queues := broken.queues, ports := t.ports })

/-- The apply at a mark (R32, R33, R158): an advance on the armed line whose own mark, consumed unit or pulled units carry the plan
mark takes the plan once its list is settled and SEQ_BREAK raised, and disarms; its draws and its starvation test then use the new
tables. Any other advance settles, draws and tests under the tables as they stand, which stay, as does the apply state. That
PLAN_APPLIED carries the consumed unit's seq, also where a pulled unit carried the mark, is the model's reading (log 12). -/
def Obligations.MarkedAdvanceTakesTheArmedPlan : Prop :=
  ∀ (s : State) (l : Line) (seq : SeqNo) (v : Variant) (mark : Bool), s.resetN = .high → s.mode = .active →
    let units := (s.seq l).units
    let marked := mark = true ∨ ∃ k j u, units.findIdx? (·.seq == seq) = some k ∧ j ≤ k ∧ units[j]? = some u ∧ u.mark = true
    let listed := units.any (·.seq == seq)
    let settled := s.afterSettling l seq
    ∃ t, exec (.advance .lp (some l) seq v.val mark) s = .next t ∧
      (marked → s.applyState = .armed l →
        let planned := { settled.applyImage (some l) .atMark seq with applyState := .idle }
        t = { planned.afterUnit l v seq listed with ports := t.ports } ∧
        t.applyState = .idle ∧ t.usage = s.image.usage ∧ t.coverage = s.image.windows ∧
        t.demand.ageStep = s.image.ageStep ∧ t.demand.watermark = s.image.watermark ∧
        (∀ i : SlotId, (t.slot i).cfg = s.image.slots[i].applied) ∧
        ∀ r : RouteId, { (t.route r).cfg with timing := s.image.routes[r].timing } = s.image.routes[r]) ∧
      (¬(marked ∧ s.applyState = .armed l) →
        t = { settled.afterUnit l v seq listed with ports := t.ports } ∧
        t.applyState = s.applyState ∧ t.usage = s.usage ∧ t.coverage = s.coverage ∧ t.image = s.image ∧
        t.routes = s.routes ∧ ∀ i, (t.slot i).cfg = (s.slot i).cfg)

/-- The comparison of a sensor with an estimate, and how the disagreement kind and count move after it (R145, R146). -/
def Obligations.SensorComparisonMovesTheCount : Prop :=
  ∀ (x : Slot) (v : SensorState),
    let e := x.cfg.eye
    let d := x.cfg.band
    (x.compare v = some .under ↔ v = .uncovered ∧ (e + d) * 1000 < x.oh) ∧
    (x.compare v = some .over ↔ v = .covered ∧ d ≤ e ∧ x.oh < (e - d) * 1000) ∧
    ∀ r : Option DiscKind, x.moved r = { x with disKind := r, disCount :=
      match r with
      | none => 0
      | some k => if x.disKind = some k then min (x.disCount + 1) 4 else 1 }

/-- SENSOR_SNAPSHOT (R144 to R149): each checked slot's count moves by its own comparison; where the count reaches 4 the slot
becomes DISCREPANT with that kind and its policy acts: REPORT nothing, RESYNC the eye level as the estimate, WITHHOLD the flag;
beyond that only a resync's order moves a record, and no unchecked slot moves. The slots are taken in ascending number, each whole
before the next: its record, then one DISCREPANCY where its flag was clear (R147) and none where it was set (R148), then a resync's
evaluation (R18, R149), with its notices. -/
def Obligations.SnapshotChecksEachBoundSlot : Prop :=
  ∀ (s : State) (bank : Nat) (states : Vector SensorState 32), s.resetN = .high →
    (s.mode = .active → bank ≤ 1 →
      let bound (i : SlotId) : Option (Fin 64) :=
        let c := (s.slot i).cfg
        if c.kind = .kanban ∧ c.status ≠ .inactive then c.sensor.filter fun n => n.val / 32 == bank else none
      let result (i : SlotId) : Option DiscKind := (bound i).bind fun n => (s.slot i).compare states[n.val % 32]
      let reaches (i : SlotId) : Bool :=
        (result i).any fun k => (s.slot i).disCount == 3 && (s.slot i).disKind == some k
      let count (f : SlotId → Bool) : Nat := (List.finRange 192).countP f
      let checked (i : SlotId) : Slot :=
        let x := s.slot i
        let y := x.moved (result i)
        if reaches i then match x.cfg.policy with
          | .report => { y with discrepant := result i }
          | .withhold => { y with discrepant := result i, withheld := true }
          | .resync =>
            let oh := min (x.cfg.eye * 1000) (x.cfg.mc * x.cfg.cq * 1000)
            { x with
              oh := oh, resyncs := min (x.resyncs + 1) 65535, disKind := none, disCount := 0, discrepant := result i
              short := x.short && decide (oh = 0) }
        else y
      let u := (List.finRange 192).foldl (fun u i =>
        let x := s.slot i
        if bound i = none then u
        else
          let v := { u with slots := u.slots.set i (checked i) }
          let w := match result i with
            | some k => if reaches i = true ∧ x.discrepant = none then v.raise (.discrepancy i k x.cfg.policy) else v
            | none => v
          if reaches i = true ∧ x.cfg.policy = .resync then w.evaluate i else w) s
      ∃ t, exec (.sensorSnapshot .lp bank states) s = .next t ∧ t = { u with ports := t.ports } ∧
        Answered s t .lp .ok (.snapshot (count fun i => (bound i).isSome) (count fun i => (result i).isSome)
          (count fun i => reaches i && (s.slot i).discrepant.isNone)) ∧
        t = { s with slots := t.slots, demand := t.demand, queues := t.queues, ports := t.ports } ∧
        ∀ i, let x := s.slot i
          let y := t.slot i
          (bound i = none → y = x) ∧
          (bound i ≠ none → reaches i = false → y = x.moved (result i)) ∧
          (reaches i = true → x.cfg.policy = .report → y = { x with disCount := 4, discrepant := result i }) ∧
          (reaches i = true → x.cfg.policy = .withhold →
            y = { x with disCount := 4, discrepant := result i, withheld := true }) ∧
          (reaches i = true → x.cfg.policy = .resync →
            let oh := min (x.cfg.eye * 1000) (x.cfg.mc * x.cfg.cq * 1000)
            SameButOrders { x with
              oh := oh, resyncs := min (x.resyncs + 1) 65535, disKind := none, disCount := 0, discrepant := result i,
              short := x.short && decide (oh = 0) } y)) ∧
    (s.mode ≠ .active → ∃ t, exec (.sensorSnapshot .lp bank states) s = .next t ∧
      OnlyAnswered s t .lp .notActive .empty) ∧
    (s.mode = .active → 1 < bank → ∃ t, exec (.sensorSnapshot .lp bank states) s = .next t ∧
      OnlyAnswered s t .lp .badArg .empty)

/-! ## Handing lines back -/

/-- A returned line goes back by its kind (R122): a rack by the rollback of its slot, covered-through becoming delivered-through
where the marks are anchored (R39); a bin line's containers to the demand queue, trimmed by the rows of R54 first, the rest
merged into the slot's OPEN line, given a line under 128 lines, or dropped (R53). A line that is created raises UNCOVERED where the
slot maps to no route (R57) and QUEUE_HIGH where it brings the count to W while armed (R59), in that order, which is the model's
reading (log 13). -/
def Obligations.ReturnedLinesGoBackByTheirKind : Prop :=
  (∀ (s : State) (y : ManifestLine) (n : Nat) (cls : DemandClass),
    (∀ c, y.load = .bin c → s.returnLine y n cls = if n = 0 then s else s.returnBins y.slot n cls) ∧
    (∀ a b k, y.load = .rack a b k → let t := s.returnLine y n cls
      t = { s with slots := t.slots } ∧ OnlySlot s t y.slot ∧
      t.slot y.slot = { s.slot y.slot with marks := (s.slot y.slot).marks.map fun m => ⟨m.delivered, m.delivered⟩ })) ∧
  ∀ (s : State) (i : SlotId) (n : Nat) (cls : DemandClass), 1 ≤ n → s.demand.returnsDropped ≤ 65535 →
    let x := s.slot i
    let t := s.returnBins i n cls
    let dropped (k : Nat) : Nat := min (s.demand.returnsDropped + k) 65535
    let cut := min n (x.ordered - x.cfg.mc)
    OnlySlot s t i ∧ SameButOrders x (t.slot i) ∧
    t = { s with slots := t.slots, demand := t.demand, queues := t.queues } ∧
    (x.cfg.kind = .sequenced → t = { s with demand := { s.demand with returnsDropped := dropped n } }) ∧
    (x.cfg.kind = .kanban → x.cfg.status = .inactive →
      t.slot i = { x with ordered := x.ordered - n } ∧ t.queues = s.queues ∧
      t.demand = { s.demand with returnsDropped := dropped n }) ∧
    (x.cfg.kind = .kanban → x.cfg.status ≠ .inactive → cut < n →
      (∀ d, s.openLine i = some d → t.slot i = { x with ordered := x.ordered - cut } ∧ t.queues = s.queues ∧
        t.demand = { s.demand with
          lines := s.demand.lines.map fun y =>
            if y.slot = i then { y with containers := y.containers + (n - cut), cls := y.cls.better cls } else y
          returnsDropped := dropped cut }) ∧
      (s.openLine i = none → s.demand.lines.length < 128 →
        t.slot i = { x with ordered := x.ordered - cut, blocked := false } ∧
        t.demand = { s.demand with
          lines := s.demand.lines ++ [⟨i, n - cut, cls, s.plant, 0, (s.mapSlot i).isNone⟩]
          highArmed := s.demand.highArmed && decide (s.demand.lines.length + 1 ≠ s.demand.watermark)
          returnsDropped := dropped cut } ∧
        let u := if s.mapSlot i = none then s.raise (.uncovered i (n - cut)) else s
        t.queues = (if s.demand.lines.length + 1 = s.demand.watermark ∧ s.demand.highArmed = true then
          u.raise (.queueHigh i s.demand.watermark) else u).queues) ∧
      (s.openLine i = none → 128 ≤ s.demand.lines.length →
        t.slot i = { x with ordered := x.ordered - n } ∧
        t.demand = { s.demand with returnsDropped := dropped n, fullArmed := false } ∧
        t.queues = if s.demand.fullArmed then (s.raise (.queueFull i .return (n - cut))).queues else s.queues)) ∧
    (x.cfg.kind = .kanban → x.cfg.status ≠ .inactive → n ≤ cut →
      t.slot i = { x with ordered := x.ordered - n } ∧ t.queues = s.queues ∧
      t.demand = { s.demand with returnsDropped := dropped n })

/-! ## The train's requests -/

/-- DEPART (R128): in COLD and for a route above 5 refused, then TRAIN_BUSY, then NOT_LOADED; otherwise the oldest LOADED manifest
goes ON_ROUTE with a copy of the live stop list, the pointer at 0 and no current stop. The other train requests are refused alike,
and without an ON_ROUTE manifest, DROP also before the first arrival (R120, R129, R131, R135). -/
def Obligations.DepartSendsTheOldestLoadedTrain : Prop :=
  ∀ s : State, s.resetN = .high →
    (∀ (r : RouteId) (h : Half), s.mode ≠ .cold → s.manifestIn r .onRoute = none → s.manifestIn r .loaded = some h →
      let b := s.buffer r h
      let stops := (s.route r).cfg.stops
      ∃ t, exec (.depart .tp r.val) s = .next t ∧
        Answered s t .tp .ok (.departed b.lap b.lines.length stops.length) ∧
        t = { s with routes := t.routes, ports := t.ports } ∧ OnlyRoute s t r ∧
        t.route r = { s.route r with pointer := 0, current := none, buffers := (t.route r).buffers } ∧
        t.buffer r h = { b with state := .onRoute, stops := some stops } ∧ t.buffer r h.other = s.buffer r h.other) ∧
    (∀ i : Nat → Instr,
      ((i = fun n => .depart .tp n) ∨ (∃ id, i = fun n => .arrive .tp n id) ∨ (∃ label, i = fun n => .drop .tp n label) ∨
        (i = fun n => .lapEnd .tp n)) →
      (s.mode = .cold → ∀ n, ∃ t, exec (i n) s = .next t ∧ OnlyAnswered s t .tp .notActive .empty) ∧
      (s.mode ≠ .cold → ∀ n, 5 < n → ∃ t, exec (i n) s = .next t ∧ OnlyAnswered s t .tp .badArg .empty) ∧
      (s.mode ≠ .cold → i ≠ (fun n => .depart .tp n) → ∀ r : RouteId, s.manifestIn r .onRoute = none →
        ∃ t, exec (i r.val) s = .next t ∧ OnlyAnswered s t .tp .wrongState .empty)) ∧
    (∀ (r : RouteId) (label : DropLabel), s.mode ≠ .cold → s.manifestIn r .onRoute ≠ none → (s.route r).current = none →
      ∃ t, exec (.drop .tp r.val label) s = .next t ∧ OnlyAnswered s t .tp .wrongStop .empty) ∧
    ∀ r : RouteId, s.mode ≠ .cold →
      (s.manifestIn r .onRoute ≠ none →
        ∃ t, exec (.depart .tp r.val) s = .next t ∧ OnlyAnswered s t .tp .trainBusy .empty) ∧
      (s.manifestIn r .onRoute = none → s.manifestIn r .loaded = none →
        ∃ t, exec (.depart .tp r.val) s = .next t ∧ OnlyAnswered s t .tp .notLoaded .empty)

/-- The search of an arrival (R129): the first index from the pointer on that holds the stop id; else behind, if the id stands
before the pointer; else unknown. -/
def Obligations.ArrivalSearchesForward : Prop :=
  ∀ (stops : List Byte) (pointer : Nat) (id : Byte),
    (∀ k, findStop stops pointer id = .found k ↔
      pointer ≤ k ∧ stops[k]? = some id ∧ ∀ j, pointer ≤ j → j < k → stops[j]? ≠ some id) ∧
    (findStop stops pointer id = .behind ↔
      (∀ j, pointer ≤ j → stops[j]? ≠ some id) ∧ ∃ j, j < pointer ∧ stops[j]? = some id) ∧
    (findStop stops pointer id = .unknown ↔ id ∉ stops)

/-- ARRIVE (R129, R130): a found stop first returns, as URGENT and in manifest order, every PLANNED line of the current stop and of
the stops from the pointer up to it, then becomes the current stop with the pointer after it; LINES_RETURNED follows if a line
was returned (R123). -/
def Obligations.ArriveReturnsTheStopsLeft : Prop :=
  ∀ (s : State) (r : RouteId) (h : Half) (id : Byte), s.resetN = .high → s.mode ≠ .cold →
    s.manifestIn r .onRoute = some h →
    let x := s.route r
    let b := s.buffer r h
    let search := findStop (b.stops.getD []) x.pointer id
    (∀ k, search = .found k →
      let left (y : ManifestLine) : Bool :=
        y.state == .planned && (x.current == some y.stop || (decide (x.pointer ≤ y.stop) && decide (y.stop < k)))
      let n := b.lines.countP left
      let u := (b.lines.filter left).foldl (fun u y => u.returnLine y (y.held - y.delivered) .urgent) s
      ∃ t, exec (.arrive .tp r.val id) s = .next t ∧
        Answered s t .tp .ok (.arrived k n (b.lines.countP fun y => y.stop == k && y.state == .planned && !left y)) ∧
        t = { s with slots := u.slots, demand := u.demand, queues := t.queues, routes := t.routes, ports := t.ports } ∧
        t.queues = (if n = 0 then u.queues else (u.raise (.linesReturned r b.lap .skipped n)).queues) ∧
        OnlyRoute s t r ∧ t.buffer r h.other = s.buffer r h.other ∧
        t.route r = { x with current := some k, pointer := k + 1, buffers := (t.route r).buffers } ∧
        t.buffer r h = { b with lines := b.lines.map fun y => if left y then { y with state := .returned } else y }) ∧
    (search = .behind → ∃ t, exec (.arrive .tp r.val id) s = .next t ∧ OnlyAnswered s t .tp .behind .empty) ∧
    (search = .unknown → ∃ t, exec (.arrive .tp r.val id) s = .next t ∧ OnlyAnswered s t .tp .unknownStop .empty)

/-- DROP finds its line (R131, R132, R134): of the PLANNED lines at the current stop the first only under FIRST, every one in
order under ANY, by part number under the mask and, for a rack, its first seq; with no hit the answer is MISMATCH, the mismatch
counter rises by 1, stopping at 65535, and nothing else changes. -/
def Obligations.DropIsMatchedAtTheCurrentStop : Prop :=
  ∀ (s : State) (r : RouteId) (h : Half) (label : DropLabel) (stop : Nat), s.resetN = .high → s.mode ≠ .cold →
    s.manifestIn r .onRoute = some h → (s.route r).current = some stop →
    let x := s.route r
    let b := s.buffer r h
    let isOpen (y : ManifestLine) : Bool := y.stop == stop && y.state == .planned
    let hits (y : ManifestLine) : Prop := label.part &&& x.cfg.mask = y.part &&& x.cfg.mask ∧
      ∀ a z k, y.load = .rack a z k → label.qualifier = a
    let tried (k : Nat) (y : ManifestLine) : Prop := b.lines[k]? = some y ∧ isOpen y = true ∧
      (x.cfg.matchMode = .first → ∀ j z, j < k → b.lines[j]? = some z → isOpen z = false)
    ((∀ k y, tried k y → ¬hits y) →
      ∃ t, exec (.drop .tp r.val label) s = .next t ∧
        Answered s t .tp .mismatch (.missed stop (b.lines.countP isOpen)) ∧
        t = { s with routes := t.routes, ports := t.ports } ∧ OnlyRoute s t r ∧
        t.route r = { x with mismatches := min (x.mismatches + 1) 65535 }) ∧
    (∀ k y, tried k y → hits y → (∀ j z, j < k → tried j z → ¬hits z) →
      let done := y.delivered + 1
      let st : LineState := if done = y.held then .delivered else .planned
      ∃ t, exec (.drop .tp r.val label) s = .next t ∧ Answered s t .tp .ok (.dropped k y.slot done y.held st) ∧
        t.buffer r h = { b with lines := b.lines.set k { y with delivered := done, state := st } } ∧
        t = { s with slots := (s.deliverLine y).slots, demand := (s.deliverLine y).demand,
                     queues := (s.deliverLine y).queues, routes := t.routes, ports := t.ports } ∧
        OnlyRoute s t r ∧ t.buffer r h.other = s.buffer r h.other ∧ t.route r = { x with buffers := (t.route r).buffers })

/-- DROP hands the delivery on (R16, R38, R133): a bin raises its KANBAN slot's estimate by CQ, held at S_mp with an overfill
counted, takes one from ordered, clears SHORT where that leaves parts, and evaluates (R18); a rack moves its slot's marks; a bin for a slot now SEQUENCED, and
a rack for a slot whose marks are UNANCHORED, leave the slot as it was. -/
def Obligations.DeliveryReachesItsSlot : Prop :=
  ∀ (s : State) (y : ManifestLine),
    let t := s.deliverLine y
    let x := s.slot y.slot
    OnlySlot s t y.slot ∧
    (∀ c, y.load = .bin c →
      (x.cfg.kind = .sequenced → t = s) ∧
      (x.cfg.kind = .kanban →
        let sum := x.oh + x.cfg.cq * 1000
        let full := x.cfg.mc * x.cfg.cq * 1000
        let oh := if full < sum then full else sum
        let z := { x with
          oh := oh, ordered := x.ordered - 1, short := x.short && decide (oh = 0),
          overfills := if full < sum then min (x.overfills + 1) 65535 else x.overfills }
        t = State.evaluate { s with slots := s.slots.set y.slot z } y.slot ∧ SameButOrders z (t.slot y.slot) ∧
        (x.cfg.status ≠ .active ∨ x.withheld = true → t.slot y.slot = { z with blocked := false } ∧ t.demand = s.demand))) ∧
    (∀ a last n, y.load = .rack a last n →
      t = { s with slots := t.slots } ∧
      (x.marks = none → t.slot y.slot = x) ∧
      ∀ m, x.marks = some m →
        let d := if seqAfter last m.delivered then last else m.delivered
        t.slot y.slot = { x with marks := some ⟨if seqAfter d m.covered then d else m.covered, d⟩ })

/-- LAP_END (R135, R136): every PLANNED line goes back as URGENT in manifest order, LINES_RETURNED follows if there was one, and the
buffer is freed: FREE with no lines, the other live manifest the older, the pointer 0 and no current stop. -/
def Obligations.LapEndReturnsAndFrees : Prop :=
  ∀ (s : State) (r : RouteId) (h : Half), s.resetN = .high → s.mode ≠ .cold → s.manifestIn r .onRoute = some h →
    let x := s.route r
    let b := s.buffer r h
    let back := b.lines.filter fun y => y.state == .planned
    let bins := (back.map fun y => match y.load with | .bin _ => y.held - y.delivered | .rack .. => 0).sum
    let u := back.foldl (fun u y => u.returnLine y (y.held - y.delivered) .urgent) s
    ∃ t, exec (.lapEnd .tp r.val) s = .next t ∧ Answered s t .tp .ok (.lapEnded b.lap back.length bins) ∧
      t = { s with slots := u.slots, demand := u.demand, queues := t.queues, routes := t.routes, ports := t.ports } ∧
      t.queues = (if back.length = 0 then u.queues else (u.raise (.linesReturned r b.lap .lapEnd back.length)).queues) ∧
      OnlyRoute s t r ∧ t.buffer r h.other = s.buffer r h.other ∧
      t.route r = { x with pointer := 0, current := none, buffers := (t.route r).buffers, older := (t.route r).older } ∧
      ((s.buffer r h.other).state ≠ .free → (t.route r).older = h.other) ∧
      t.buffer r h = { b with state := .free, lines := [] }

/-! ## Building -/

/-- BUILD_POINT where nothing is built (R58, R85, R102, R103): every demand line's uncovered flag is set afresh, each line newly
uncovered raising UNCOVERED, front to back; then a held route counts the lap held, and a route with no FREE buffer counts it missed
and raises LAP_MISSED with the older manifest's state. -/
def Obligations.BuildIsHeldOrMissed : Prop :=
  ∀ (s : State) (r : RouteId), s.resetN = .high → (s.route r).due = some .build →
    let x := s.route r
    let flags : DemandQueue := { s.demand with
      lines := s.demand.lines.map fun y => { y with uncovered := (s.mapSlot y.slot).isNone } }
    let newly := s.demand.lines.filter fun y => !y.uncovered && (s.mapSlot y.slot).isNone
    let u := newly.foldl (fun u y => u.raise (.uncovered y.slot y.containers)) s
    (x.hold = true → ∃ t, exec (.buildPoint r) s = .next t ∧
      t = { s with demand := flags, queues := u.queues, routes := t.routes } ∧ OnlyRoute s t r ∧
      t.route r = { x with heldCount := min (x.heldCount + 1) 65535, due := none }) ∧
    (x.hold = false → (∀ h, (s.buffer r h).state ≠ .free) → ∃ t, exec (.buildPoint r) s = .next t ∧
      t = { s with demand := flags, queues := (u.raise (.lapMissed r x.lap (s.buffer r x.older).state)).queues,
                   routes := t.routes } ∧ OnlyRoute s t r ∧
      t.route r = { x with missedCount := min (x.missedCount + 1) 65535, due := none })

/-- A build offers what fits (R97 to R113): in the lower-numbered FREE buffer, OFFERED, with the route's lap and the plant time; at
most 32 lines in stop order, each PLANNED and whole, at its slot's mapping on this route with its live part number and size, within
the route's capacities; PICK_READY follows; slots move only in the covered-through of the racks placed. A rack is made for exactly
each ACTIVE SEQUENCED slot mapped to this route with no rack out, eligible, with room of its class and fewer than 32 lines, taken in
slot order (R105, R106). Bins go to candidates alone (R108), each, by rank, age and queue position (R109), given the less of its
containers and the room left, while fewer than 32 lines stand (R110). Within one stop racks stand first, by slot, then bins as they
were served (R100). A live manifest in the other buffer is the older, else the new one is (R97). And, of every slot, whether it is
eligible and for which rack: its beyond units and its lead, from its line's list, the matrix and its marks (R35, R36). -/
def Obligations.BuildOffersWhatFits : Prop :=
  (∀ (s : State) (i : SlotId),
    let c := (s.slot i).cfg
    let qualifying := (s.seq c.line).units.filter fun u => decide (0 < (s.usage.get c.line).quantity u.variant c.group)
    ((s.slot i).marks = none → s.eligibleRack i = none) ∧
    ∀ m, (s.slot i).marks = some m →
      let beyond := qualifying.filter fun u => seqAfter u.seq m.covered
      let lead := qualifying.countP fun u => !seqAfter u.seq m.delivered
      let eligible := c.rackSize ≤ beyond.length ∨ lead < c.minLead ∧ 1 ≤ beyond.length
      let n := min c.rackSize beyond.length
      (¬eligible → s.eligibleRack i = none) ∧
      (eligible → 1 ≤ c.rackSize → ∃ first last, beyond[0]? = some first ∧ beyond[n - 1]? = some last ∧
        s.eligibleRack i = some ⟨first.seq, last.seq, n⟩)) ∧
  ∀ (s : State) (r : RouteId) (h : Half), s.resetN = .high → (s.route r).due = some .build →
    (s.route r).hold = false → (s.buffer r h).state = .free → (h = .upper → (s.buffer r .lower).state ≠ .free) →
    ∃ t, exec (.buildPoint r) s = .next t ∧
      let x := s.route r
      let b := t.buffer r h
      let caps := x.cfg.caps
      let newly := s.demand.lines.filter fun y => !y.uncovered && (s.mapSlot y.slot).isNone
      let u := newly.foldl (fun u y => u.raise (.uncovered y.slot y.containers)) s
      t = { s with slots := t.slots, demand := t.demand, routes := t.routes, queues := t.queues } ∧
      t.queues = (u.raise (.pickReady r x.lap b.lines.length)).queues ∧
      OnlyRoute s t r ∧ t.buffer r h.other = s.buffer r h.other ∧
      t.route r = { x with
        due := none, buffers := (t.route r).buffers, older := if (s.buffer r h.other).state = .free then h else h.other } ∧
      b = { state := .offered, lap := x.lap, builtAt := s.plant, seen := 0, overdue := false,
            load := b.load, lines := b.lines, stops := none } ∧
      (∀ z, b.load.get z = ((b.lines.filter (·.size == z)).map (·.planned)).sum) ∧
      b.lines.length ≤ 32 ∧ b.load.s ≤ caps.s ∧ b.load.m ≤ caps.m ∧ b.load.l ≤ caps.l ∧
      b.lines.Pairwise (fun y z => y.stop ≤ z.stop) ∧
      (∀ y ∈ b.lines, s.mapSlot y.slot = some (r, y.stop) ∧ y.part = (s.slot y.slot).cfg.part ∧
        y.size = (s.slot y.slot).cfg.size ∧ y.held = y.planned ∧ 1 ≤ y.planned ∧ y.delivered = 0 ∧ y.state = .planned ∧
        (s.slot y.slot).cfg.status = .active) ∧
      (∀ i, (∀ a z n, (∃ y ∈ b.lines, y.slot = i ∧ y.load = .rack a z n) →
          s.eligibleRack i = some ⟨a, z, n⟩ ∧
          t.slot i = { s.slot i with marks := (s.slot i).marks.map fun m => { m with covered := z } }) ∧
        ((∀ y ∈ b.lines, y.slot = i → ∃ c, y.load = .bin c) → t.slot i = s.slot i)) ∧
      let isRack (y : ManifestLine) : Bool := match y.load with | .rack .. => true | .bin _ => false
      let racks := b.lines.filter isRack
      let bins := b.lines.filter fun y => !isRack y
      let size (i : SlotId) : SizeClass := (s.slot i).cfg.size
      let rank (d : DemandLine) : Nat :=
        let base := match d.cls with | .urgent => 1 | .kanban => 2 | .topup => 3
        if s.demand.ageStep = 0 then base else max 1 (base - d.passes / s.demand.ageStep)
      let age (d : DemandLine) : Nat := (s.plant - d.created).toNat
      let place (d : DemandLine) : Nat := s.demand.lines.findIdx (·.slot == d.slot)
      let before (d e : DemandLine) : Prop := rank d < rank e ∨
        rank d = rank e ∧ (age e < age d ∨ age d = age e ∧ place d < place e)
      let candidate (d : DemandLine) : Prop := (∃ k, s.mapSlot d.slot = some (r, k)) ∧
        (s.slot d.slot).cfg.kind = .kanban ∧ (s.slot d.slot).cfg.status = .active ∧ (s.slot d.slot).withheld = false
      (∀ i, let ahead := racks.filter fun y => decide (y.slot < i)
        ((∃ y ∈ racks, y.slot = i) ↔
          ((s.slot i).cfg.kind = .sequenced ∧ (s.slot i).cfg.status = .active ∧ (∃ k, s.mapSlot i = some (r, k)) ∧
            (∀ q g, (s.buffer q g).state ≠ .free → ∀ y ∈ (s.buffer q g).lines, y.slot = i → isRack y = true →
              y.state ≠ .planned) ∧
            s.eligibleRack i ≠ none ∧ ahead.countP (·.size == size i) < caps.get (size i) ∧ ahead.length < 32))) ∧
      (∀ y ∈ bins, ∃ d ∈ s.demand.lines, d.slot = y.slot ∧ y.load = .bin d.cls ∧ candidate d) ∧
      (s.demand.Law →
        (∀ d ∈ s.demand.lines, candidate d →
          let served := bins.filter fun y => (s.openLine y.slot).any fun e => decide (before e d)
          let used := racks.countP (·.size == size d.slot) +
            ((served.filter (·.size == size d.slot)).map (·.planned)).sum
          let k := if racks.length + served.length < 32 then min d.containers (caps.get (size d.slot) - used) else 0
          (bins.filter (·.slot == d.slot)).map (·.planned) = if k = 0 then [] else [k]) ∧
        b.lines.Pairwise fun y z => y.stop = z.stop →
          (isRack y = true ∧ (isRack z = true → y.slot < z.slot)) ∨
          (isRack y = false ∧ isRack z = false ∧
            ∃ d e, s.openLine y.slot = some d ∧ s.openLine z.slot = some e ∧ before d e))

/-- A build keeps every container (R50, R51, R108, R110): what leaves a slot's OPEN line stands on its bin lines of the new manifest,
with the line's class; a candidate left with containers keeps its line, with one more pass; a line that is no candidate keeps all
but its uncovered flag; no line is created and the order of the queue stays. QUEUE_HIGH and QUEUE_FULL are re-armed where a line leaves
and the count falls below W, or below 112 (R50, R59, R60), and the queue is otherwise as it was. -/
def Obligations.BuildKeepsEveryContainer : Prop :=
  ∀ (s : State) (r : RouteId) (h : Half), s.demand.Law → s.resetN = .high → (s.route r).due = some .build →
    (s.route r).hold = false → (s.buffer r h).state = .free → (h = .upper → (s.buffer r .lower).state ≠ .free) →
    ∃ t, exec (.buildPoint r) s = .next t ∧
      (t.demand.lines.map (·.slot)).Sublist (s.demand.lines.map (·.slot)) ∧
      let n := t.demand.lines.length
      t.demand = { s.demand with
        lines := t.demand.lines
        highArmed := s.demand.highArmed || decide (n < s.demand.lines.length ∧ n < s.demand.watermark)
        fullArmed := s.demand.fullArmed || decide (n < s.demand.lines.length ∧ n < 112) } ∧
      ∀ d ∈ s.demand.lines,
        let x := s.slot d.slot
        let candidate := (∃ k, s.mapSlot d.slot = some (r, k)) ∧ x.cfg.kind = .kanban ∧ x.cfg.status = .active ∧
          x.withheld = false
        let bins := (t.buffer r h).lines.filter (·.binOf d.slot)
        (bins.map (·.planned)).sum + t.openContainers d.slot = d.containers ∧
        (∀ y ∈ bins, y.load = .bin d.cls) ∧ bins.length ≤ 1 ∧
        (candidate → ∀ e, t.openLine d.slot = some e →
          e = { d with containers := e.containers, passes := min (d.passes + 1) 255, uncovered := false }) ∧
        (¬candidate → t.openLine d.slot = some { d with uncovered := (s.mapSlot d.slot).isNone })

/-! ## The supermarket's requests -/

/-- BEGIN_PICK, SHORT_PICK and LOAD_CONFIRM (R120, R124 to R126): each in the states the rule names, on the manifest that route and
lap name. A short pick lowers one line's held and its class's carried load, and returns as URGENT what it takes off. -/
def Obligations.PickingMovesTheManifest : Prop :=
  ∀ s : State, s.resetN = .high →
    (∀ (r : RouteId) (lap : Lap) (h : Half), s.mode ≠ .cold → s.manifest r lap = some h →
      let b := s.buffer r h
      (b.state = .offered → ∃ t, exec (.beginPick .sp r.val lap) s = .next t ∧
        Answered s t .sp .ok (.lineCount b.lines.length) ∧ t = { s with routes := t.routes, ports := t.ports } ∧
        OnlyRoute s t r ∧ t.buffer r h.other = s.buffer r h.other ∧
        t.route r = { s.route r with buffers := (t.route r).buffers } ∧ t.buffer r h = { b with state := .picking }) ∧
      (b.state ≠ .offered → ∃ t, exec (.beginPick .sp r.val lap) s = .next t ∧
        OnlyAnswered s t .sp .wrongState .empty) ∧
      (b.state = .offered ∨ b.state = .picking →
        (∃ t, exec (.loadConfirm .sp r.val lap) s = .next t ∧ Answered s t .sp .ok (.load b.load) ∧
          t = { s with routes := t.routes, ports := t.ports } ∧ OnlyRoute s t r ∧
          t.buffer r h.other = s.buffer r h.other ∧ t.route r = { s.route r with buffers := (t.route r).buffers } ∧
          t.buffer r h = { b with state := .loaded }) ∧
        (∀ (k : Nat) (y : ManifestLine) (n : Nat), b.lines[k]? = some y → n < y.held →
          let u := s.returnLine y (y.held - n) .urgent
          ∃ t, exec (.shortPick .sp r.val lap k n) s = .next t ∧ Answered s t .sp .ok (.held n) ∧
            t = { s with slots := u.slots, demand := u.demand, routes := t.routes, ports := t.ports,
                         queues := (u.raise (.linesReturned r b.lap .shortPick 1)).queues } ∧
            OnlyRoute s t r ∧ t.buffer r h.other = s.buffer r h.other ∧
            t.route r = { s.route r with buffers := (t.route r).buffers } ∧
            t.buffer r h = { b with
              lines := b.lines.set k { y with held := n, state := if n = 0 then .returned else y.state }
              load := (t.buffer r h).load } ∧
            (∀ z, z ≠ y.size → (t.buffer r h).load.get z = b.load.get z) ∧
            (t.buffer r h).load.get y.size = b.load.get y.size - (y.held - n)) ∧
        ∀ k n, (b.lines.length ≤ k ∨ ∃ y, b.lines[k]? = some y ∧ y.held ≤ n) →
          ∃ t, exec (.shortPick .sp r.val lap k n) s = .next t ∧ OnlyAnswered s t .sp .badArg .empty) ∧
      (b.state = .loaded ∨ b.state = .onRoute → ∀ i, i = .loadConfirm .sp r.val lap ∨
        (∃ k n, i = .shortPick .sp r.val lap k n) → ∃ t, exec i s = .next t ∧ OnlyAnswered s t .sp .wrongState .empty)) ∧
    ∀ (n : Nat) (lap : Lap) (i : Instr),
      i = .beginPick .sp n lap ∨ i = .loadConfirm .sp n lap ∨ (∃ k m, i = .shortPick .sp n lap k m) →
      (s.mode = .cold → ∃ t, exec i s = .next t ∧ OnlyAnswered s t .sp .notActive .empty) ∧
      (s.mode ≠ .cold → 5 < n → ∃ t, exec i s = .next t ∧ OnlyAnswered s t .sp .badArg .empty) ∧
      (s.mode ≠ .cold → ∀ r : RouteId, n = r.val → s.manifest r lap = none →
        ∃ t, exec i s = .next t ∧ OnlyAnswered s t .sp .notFound .empty)

/-- CANCEL_MANIFEST (R52, R127, R136), in every mode: a manifest not yet ON_ROUTE is withdrawn, every PLANNED line going back in
manifest order with the class it was selected with, LINES_RETURNED following if there was one, and its buffer is freed. -/
def Obligations.CancelReturnsEveryLineAndFrees : Prop :=
  ∀ s : State, s.resetN = .high →
    (∀ (r : RouteId) (lap : Lap) (h : Half), s.manifest r lap = some h →
      let b := s.buffer r h
      let back := b.lines.filter fun y => y.state == .planned
      let bins := (back.map fun y => match y.load with | .bin _ => y.held - y.delivered | .rack .. => 0).sum
      let u := back.foldl (fun u y => u.returnLine y (y.held - y.delivered)
        (match y.load with | .bin c => c | .rack .. => .urgent)) s
      (b.state ≠ .onRoute → ∃ t, exec (.cancelManifest .ep r.val lap) s = .next t ∧
        Answered s t .ep .ok (.manifestCancelled back.length bins) ∧
        t = { s with slots := u.slots, demand := u.demand, queues := t.queues, routes := t.routes, ports := t.ports } ∧
        t.queues = (if back.length = 0 then u.queues
          else (u.raise (.linesReturned r b.lap .cancel back.length)).queues) ∧
        OnlyRoute s t r ∧ t.buffer r h.other = s.buffer r h.other ∧
        t.route r = { s.route r with buffers := (t.route r).buffers, older := (t.route r).older } ∧
        ((s.buffer r h.other).state ≠ .free → (t.route r).older = h.other) ∧
        t.buffer r h = { b with state := .free, lines := [] }) ∧
      (b.state = .onRoute → ∃ t, exec (.cancelManifest .ep r.val lap) s = .next t ∧
        OnlyAnswered s t .ep .wrongState .empty)) ∧
    (∀ n lap, 5 < n → ∃ t, exec (.cancelManifest .ep n lap) s = .next t ∧ OnlyAnswered s t .ep .badArg .empty) ∧
    ∀ (r : RouteId) lap, s.manifest r lap = none →
      ∃ t, exec (.cancelManifest .ep r.val lap) s = .next t ∧ OnlyAnswered s t .ep .notFound .empty

/-! ## Engineering's requests -/

/-- The five staging requests (R156): while IDLE an accepted WRITE replaces the whole entry it names and answers it as stored, after
the clamps made when staged (R3 to R6, R10, R11, R43, R59, R70, R82, R101); a READ then answers that entry; while ARMED a WRITE is
refused with STAGE_LOCKED, and a request out of its ranges with BAD_ARG; nothing live changes. A READ answers its entry as the image
holds it, whatever the apply state, and changes nothing. How many entries a STAGE_USAGE READ answers is open (log 9); that its WRITE
with no value, or with more than reach group 15, answers BAD_ARG ahead of STAGE_LOCKED is the model's reading (log 10). -/
def Obligations.StagedEntriesAreClampedAndReadBack : Prop :=
  ∀ s : State, s.resetN = .high →
    let clamp (lo hi n : Nat) : Nat := if n < lo then lo else if hi < n then hi else n
    let stored (i : StageOp Unit → Instr) (body : Body) (t : State) : Prop :=
      exec (i (.write ())) s = .next t ∧ Answered s t .ep .ok body ∧ t = { s with image := t.image, ports := t.ports } ∧
      ∃ t', exec (i .read) t = .next t' ∧ OnlyAnswered t t' .ep .ok body
    let op {α : Type} (fields : α) : StageOp Unit → StageOp α := fun o => match o with | .read => .read | .write _ => .write fields
    (s.applyState = .idle →
      (∀ (i : SlotId) (f : SlotFields) (kind : SlotKind) (status : SlotStatus) (line : Line) (g : Fin 16) (z : SizeClass)
          (sensor : Option (Fin 64)) (policy : Policy),
        f.kind = some kind → f.status = some status → f.line = some line → f.group = g.val → f.size = some z →
        f.sensor = sensor.map (·.val) → f.policy = some policy →
        let c : SlotConfig := {
          kind := kind, status := status, line := line, location := BitVec.ofNat 24 f.location, part := f.part, group := g,
          allowance := clamp 0 250 f.allowance, size := z, cq := clamp 1 9999 f.cq, mc := clamp 1 4 f.mc, rop := f.rop,
          start := f.start.getD .full, sensor := sensor, eye := f.eye, band := clamp 0 255 f.band, policy := policy,
          rackSize := clamp 1 12 f.rackSize, minLead := clamp 0 24 f.minLead }
        ∃ t, stored (fun o => .stageSlot .ep i.val (op f o)) (.stagedSlot c) t ∧
          t.image = { s.image with slots := s.image.slots.set i c }) ∧
      (∀ (l : Line) (v : Variant) (g : Fin 16) (values : List Nat), v ≠ 0 → 1 ≤ values.length →
        g.val + values.length ≤ 16 →
        ∃ t, exec (.stageUsage .ep (some l) (.variant v.val) g.val (.write values)) s = .next t ∧
          Answered s t .ep .ok (.stagedUsage (values.map fun n => clamp 0 15 n)) ∧
          t = { s with image := t.image, ports := t.ports } ∧
          t.image = { s.image with usage := t.image.usage } ∧
          (∀ k, k ≠ l → t.image.usage.get k = s.image.usage.get k) ∧
          (t.image.usage.get l).allowance = (s.image.usage.get l).allowance ∧
          ∀ (w : Variant) (k : Fin 16), (t.image.usage.get l).quantity w k =
            if w = v ∧ g.val ≤ k.val ∧ k.val < g.val + values.length then clamp 0 15 (values.getD (k.val - g.val) 0)
            else (s.image.usage.get l).quantity w k) ∧
      (∀ (l : Line) (g : Fin 16) (values : List Nat), 1 ≤ values.length → g.val + values.length ≤ 16 →
        ∃ t, exec (.stageUsage .ep (some l) .allowance g.val (.write values)) s = .next t ∧
          Answered s t .ep .ok (.stagedUsage (values.map fun n => clamp 0 250 n)) ∧
          t = { s with image := t.image, ports := t.ports } ∧
          t.image = { s.image with usage := t.image.usage } ∧
          (∀ k, k ≠ l → t.image.usage.get k = s.image.usage.get k) ∧
          (t.image.usage.get l).q = (s.image.usage.get l).q ∧
          ∀ k : Fin 16, (t.image.usage.get l).allowance[k] =
            if g.val ≤ k.val ∧ k.val < g.val + values.length then clamp 0 250 (values.getD (k.val - g.val) 0)
            else (s.image.usage.get l).allowance[k]) ∧
      (∀ (r : RouteId) (f : RouteFields) (source : ClockSource) (m : MatchMode),
        f.source = some source → f.matchMode = some m → 1 ≤ f.stops.length → f.stops.length ≤ 16 →
        let c : RouteConfig := {
          timing := { enabled := f.enabled, source := source, period := clamp 600 36000 f.period,
                      buildAt := f.buildAt.toNat, departAt := f.departAt.toNat }
          caps := ⟨clamp 0 48 f.capS, clamp 0 16 f.capM, clamp 0 6 f.capL⟩, stops := f.stops, matchMode := m, mask := f.mask }
        ∃ t, stored (fun o => .stageRoute .ep r.val (op f o)) (.stagedRoute c) t ∧
          t.image = { s.image with routes := s.image.routes.set r c }) ∧
      (∀ (k : Fin 12) (f : WindowFields) (r : RouteId), f.route = r.val →
        let w : Window := {
          enabled := f.enabled, base := BitVec.ofNat 24 f.base, mask := BitVec.ofNat 24 f.mask, route := r,
          stopBase := clamp 0 15 f.stopBase, spread := f.spread.map fun n => clamp 0 20 n }
        ∃ t, stored (fun o => .stageWindow .ep k.val (op f o)) (.stagedWindow w) t ∧
          t.image = { s.image with windows := s.image.windows.set k w }) ∧
      (∀ f : GlobalFields,
        ∃ t, stored (fun o => .stageGlobals .ep (op f o)) (.stagedGlobals (clamp 0 7 f.ageStep) (clamp 1 128 f.watermark)) t ∧
          t.image = { s.image with ageStep := clamp 0 7 f.ageStep, watermark := clamp 1 128 f.watermark })) ∧
    ((∀ i : SlotId, ∃ t, exec (.stageSlot .ep i.val .read) s = .next t ∧
        OnlyAnswered s t .ep .ok (.stagedSlot s.image.slots[i])) ∧
      (∀ r : RouteId, ∃ t, exec (.stageRoute .ep r.val .read) s = .next t ∧
        OnlyAnswered s t .ep .ok (.stagedRoute s.image.routes[r])) ∧
      (∀ k : Fin 12, ∃ t, exec (.stageWindow .ep k.val .read) s = .next t ∧
        OnlyAnswered s t .ep .ok (.stagedWindow s.image.windows[k])) ∧
      ∃ t, exec (.stageGlobals .ep .read) s = .next t ∧
        OnlyAnswered s t .ep .ok (.stagedGlobals s.image.ageStep s.image.watermark)) ∧
    (∀ (l : Line) (g : Fin 16) (v : Variant),
      (v ≠ 0 → ∃ t n, 1 ≤ n ∧ g.val + n ≤ 16 ∧ exec (.stageUsage .ep (some l) (.variant v.val) g.val .read) s = .next t ∧
        OnlyAnswered s t .ep .ok (.stagedUsage
          (((List.finRange 16).map fun k => (s.image.usage.get l).quantity v k).drop g.val |>.take n))) ∧
      ∃ t n, 1 ≤ n ∧ g.val + n ≤ 16 ∧ exec (.stageUsage .ep (some l) .allowance g.val .read) s = .next t ∧
        OnlyAnswered s t .ep .ok (.stagedUsage
          (((List.finRange 16).map fun k => (s.image.usage.get l).allowance[k]).drop g.val |>.take n))) ∧
    (∀ i : Instr,
      (∃ n, 191 < n ∧ i = .stageSlot .ep n .read) ∨ (∃ n, 5 < n ∧ i = .stageRoute .ep n .read) ∨
      (∃ n, 11 < n ∧ i = .stageWindow .ep n .read) ∨
      (∃ l row n, (l = none ∨ row = .variant 0 ∨ (∃ v, 31 < v ∧ row = .variant v) ∨ 15 < n) ∧
        i = .stageUsage .ep l row n .read) ∨
      (∃ l row n values, (values = [] ∨ 16 < n + values.length) ∧ i = .stageUsage .ep l row n (.write values)) ∨
      (s.applyState = .idle ∧
        ((∃ n f, (191 < n ∨ f.kind = none ∨ f.status = none ∨ f.line = none ∨ 15 < f.group ∨ f.size = none ∨
            f.policy = none ∨ ∃ k, f.sensor = some k ∧ 63 < k) ∧ i = .stageSlot .ep n (.write f)) ∨
         (∃ n f, (5 < n ∨ f.source = none ∨ f.matchMode = none ∨ f.stops = [] ∨ 16 < f.stops.length) ∧
            i = .stageRoute .ep n (.write f)) ∨
         (∃ n f, (11 < n ∨ 5 < f.route) ∧ i = .stageWindow .ep n (.write f)) ∨
         (∃ l row n values, (l = none ∨ row = .variant 0 ∨ (∃ v, 31 < v ∧ row = .variant v) ∨ 15 < n) ∧
            i = .stageUsage .ep l row n (.write values)))) →
      ∃ t, exec i s = .next t ∧ OnlyAnswered s t .ep .badArg .empty) ∧
    ∀ (l : Line), s.applyState = .armed l → ∀ i : Instr,
      (∃ n f, i = .stageSlot .ep n (.write f)) ∨ (∃ n f, i = .stageRoute .ep n (.write f)) ∨
      (∃ n f, i = .stageWindow .ep n (.write f)) ∨ (∃ f, i = .stageGlobals .ep (.write f)) ∨
      (∃ k row n values, i = .stageUsage .ep k row n (.write values) ∧ values.length ≠ 0 ∧ n + values.length ≤ 16) →
      ∃ t, exec i s = .next t ∧ OnlyAnswered s t .ep .stageLocked .empty

/-- An apply, and APPLY at once while IDLE (R56, R94, R153, R157, R159 to R162). Every live table takes the image, ROP, start level and
E held at the bounds of the new MC and CQ in both copies; a route's timing is taken up, made pending or discarded; each changed slot's
record is adjusted or reset by its kinds, and its OPEN line is cancelled in whole or part, ordered falling by as many. Outside COLD the
changed slots then evaluate, in ascending slot number, and PLAN_APPLIED follows with the line, seq, mode and number of changed slots.
Beyond that only orders move a KANBAN record. That a route which takes staged timing up at once drops an older pending timing is the
model's reading (log 21). -/
def Obligations.ApplyCopiesThePlan : Prop :=
  ∀ s : State,
    let held (c : SlotConfig) : SlotConfig :=
      if c.kind = .kanban then { c with
        rop := min c.rop ((c.mc - 1) * c.cq), eye := min c.eye (c.mc * c.cq)
        start := match c.start with | .full => .full | .parts n => .parts (min n (c.mc * c.cq)) }
      else c
    let new (i : SlotId) : SlotConfig := held s.image.slots[i]
    let changed := (List.finRange 192).filter fun i => decide (new i ≠ (s.slot i).cfg)
    let rebase (l : Line) : Option Marks := (s.seq l).last.map fun last =>
      match (s.seq l).units with | [] => ⟨last, last⟩ | u :: _ => ⟨u.seq - 1, u.seq - 1⟩
    let binsOut (i : SlotId) : Nat := ((List.finRange 6).map fun r => ([Half.lower, .upper].map fun h =>
      if (s.buffer r h).state = .free then 0 else (((s.buffer r h).lines.filter fun y =>
        y.slot == i && y.state == .planned && match y.load with | .bin _ => true | .rack .. => false).map
        fun y => y.held - y.delivered).sum).sum).sum
    let cancelled (i : SlotId) : Nat :=
      let x := s.slot i
      let c := new i
      let n := ((s.openLine i).map (·.containers)).getD 0
      if c = x.cfg ∨ x.cfg.kind = .sequenced then 0
      else if c.kind = .sequenced ∨ (c.status = .inactive ∧ x.cfg.status ≠ .inactive) then n
      else if c.mc < x.cfg.mc ∧ c.mc < x.ordered then min n (x.ordered - c.mc) else 0
    let lines := s.demand.lines.filterMap fun y =>
      let k := cancelled y.slot
      if k = 0 then some y
      else if ((s.openLine y.slot).map (·.containers)).getD 0 ≤ k then none
      else some { y with containers := y.containers - k }
    let adjusted (i : SlotId) : Slot :=
      let x := s.slot i
      let c := new i
      let full := c.mc * c.cq * 1000
      let same := c.sensor = x.cfg.sensor ∧ c.eye = x.cfg.eye ∧ c.band = x.cfg.band ∧ c.policy = x.cfg.policy
      if c = x.cfg then x
      else match x.cfg.kind, c.kind with
        | .kanban, .kanban => { x with
            cfg := c, oh := min x.oh full, ordered := x.ordered - cancelled i
            disKind := if same then x.disKind else none, disCount := if same then x.disCount else 0 }
        | .kanban, .sequenced => { cfg := c, marks := rebase c.line }
        | .sequenced, .kanban => {
            cfg := c, oh := match c.start with | .full => full | .parts n => min (n * 1000) full
            ordered := binsOut i }
        | .sequenced, .sequenced => { x with cfg := c, marks := if c.line = x.cfg.line then x.marks else rebase c.line }
    (∀ (line : Option Line) (mode : ApplyMode) (seq : SeqNo), ∃ a : State,
      a = { s with
        usage := s.image.usage, coverage := s.image.windows, slots := a.slots, routes := a.routes
        image := { s.image with slots := a.image.slots }
        demand := { s.demand with
          lines := lines, ageStep := s.image.ageStep, watermark := s.image.watermark
          highArmed := decide (lines.length < s.image.watermark)
          fullArmed := s.demand.fullArmed || decide (lines.length < s.demand.lines.length ∧ lines.length < 112) } } ∧
      (∀ i, a.slot i = adjusted i) ∧
      (∀ i : SlotId, a.image.slots[i] = if new i = (s.slot i).cfg then s.image.slots[i] else new i) ∧
      (∀ r : RouteId, let x := s.route r
        let c := s.image.routes[r]
        let counting := x.cfg.timing.enabled = true ∧ (x.c ≠ 0 ∨ x.lap ≠ 0)
        (c.timing = x.cfg.timing → a.route r = { x with cfg := c, next := none }) ∧
        (c.timing ≠ x.cfg.timing → counting →
          a.route r = { x with cfg := { c with timing := x.cfg.timing }, next := some c.timing }) ∧
        (c.timing ≠ x.cfg.timing → ¬counting →
          a.route r = { x with cfg := c, next := none, c := if x.c < c.timing.period then x.c else 0 })) ∧
      s.applyImage line mode seq =
        (if s.mode = .cold then a else changed.foldl State.evaluate a).raise (.planApplied line seq mode changed.length)) ∧
    ∀ line : Option Line, s.resetN = .high → s.applyState = .idle →
      ∃ t, exec (.apply .ep (some .immediate) line) s = .next t ∧
        Answered s t .ep .ok (.changed ((List.finRange 192).countP fun i => decide (new i ≠ (s.slot i).cfg))) ∧
        t = { s.applyImage none .immediate 0 with ports := t.ports } ∧
        t = { s with usage := s.image.usage, coverage := s.image.windows, slots := t.slots, demand := t.demand,
                     routes := t.routes, image := t.image, queues := t.queues, ports := t.ports } ∧
        t.demand.ageStep = s.image.ageStep ∧ t.demand.watermark = s.image.watermark ∧
        ∀ i, SameButOrders (adjusted i) (t.slot i) ∧
          (new i = (s.slot i).cfg ∨ (new i).kind = .sequenced → t.slot i = adjusted i)

/-- An apply taken twice (R159, R161): the second changes no slot, answers 0 and does nothing but raise PLAN_APPLIED. -/
def Obligations.ApplyAgainChangesNothing : Prop :=
  ∀ (s t : State) (line : Option Line), s.resetN = .high → s.applyState = .idle →
    exec (.apply .ep (some .immediate) line) s = .next t →
    ∃ t', exec (.apply .ep (some .immediate) line) t = .next t' ∧ Answered t t' .ep .ok (.changed 0) ∧
      t' = { t with queues := (t.raise (.planApplied none 0 .immediate 0)).queues, ports := t'.ports }

/-- APPLY at a mark, and CANCEL_APPLY (R157, R158): AT_MARK arms the line named while IDLE; ARMED refuses either mode; a mode that is
neither, or AT_MARK with a line that is neither A nor B, is refused with BAD_ARG; a cancel disarms and answers the state it found. That
AT_MARK with such a line answers BAD_ARG, and not STAGE_LOCKED, while ARMED too is the model's choice (log 24). -/
def Obligations.ApplyIsArmedAndCancelled : Prop :=
  ∀ s : State, s.resetN = .high →
    (∀ l : Line, s.applyState = .idle → ∃ t, exec (.apply .ep (some .atMark) (some l)) s = .next t ∧
      Answered s t .ep .ok .empty ∧ t = { s with applyState := .armed l, ports := t.ports }) ∧
    (∀ (l k : Line) (line : Option Line), s.applyState = .armed k → ∀ i,
      i = .apply .ep (some .atMark) (some l) ∨ i = .apply .ep (some .immediate) line →
      ∃ t, exec i s = .next t ∧ OnlyAnswered s t .ep .stageLocked .empty) ∧
    (∀ (i : Instr), (∃ line, i = .apply .ep none line) ∨ i = .apply .ep (some .atMark) none →
      ∃ t, exec i s = .next t ∧ OnlyAnswered s t .ep .badArg .empty) ∧
    ∃ t, exec (.cancelApply .ep) s = .next t ∧ Answered s t .ep .ok (.applyState s.applyState) ∧
      t = { s with applyState := .idle, ports := t.ports }

/-- A slot maps as its location code does (R67, R68). A code maps by the first window it hits, diverts before coverage windows, to the window's route and its stop, held at the route's
last (R64 to R66); and SET_DIVERT writes one divert window at once, in every mode (R71). That it writes the fields sent where enabled is
clear too, and does not keep those held, is the model's choice (log 25). -/
def Obligations.CodesMapByTheFirstWindowHit : Prop :=
  ∀ s : State,
    (∀ i, s.mapSlot i = s.mapCode (s.slot i).cfg.location) ∧
    (∀ code : Location,
      let all := (List.finRange 4).map (fun k => s.diverts[k]) ++ (List.finRange 12).map (fun k => s.coverage[k])
      let hit (w : Window) : Prop := w.enabled = true ∧
        ∀ b, b < 24 → w.mask.getLsbD b = true → code.getLsbD b = w.base.getLsbD b
      (∀ (j : Nat) (w : Window), all[j]? = some w → hit w → (∀ (i : Nat) (v : Window), i < j → all[i]? = some v → ¬hit v) →
        let raw := match w.spread with | none => w.stopBase | some p => w.stopBase + code.toNat / 2 ^ p % 16
        s.mapCode code = some (w.route, min raw ((s.route w.route).cfg.stops.length - 1))) ∧
      ((∀ w ∈ all, ¬hit w) → s.mapCode code = none)) ∧
    (s.resetN = .high → ∀ (n : Nat) (f : WindowFields),
      (∀ (k : Fin 4) (r : RouteId), n = k.val → f.route = r.val →
        let w : Window := {
          enabled := f.enabled, base := BitVec.ofNat 24 f.base, mask := BitVec.ofNat 24 f.mask, route := r,
          stopBase := min f.stopBase 15, spread := f.spread.map (min · 20) }
        ∃ t, exec (.setDivert .ep n f) s = .next t ∧ Answered s t .ep .ok (.stagedWindow w) ∧
          t = { s with diverts := s.diverts.set k w, ports := t.ports }) ∧
      (3 < n ∨ 5 < f.route → ∃ t, exec (.setDivert .ep n f) s = .next t ∧ OnlyAnswered s t .ep .badArg .empty))

/-- TOPUP and CANCEL_DEMAND, by the tests of R48 and R49 in their order, where a slot's OPEN line is the first in the queue that is the
slot's (R42) and of two classes the better is the one of lower base rank, URGENT before KANBAN before TOPUP (R43, R47). That the QUEUE_FULL of a TOPUP answered AT_MAX with limit
QUEUE carries the grant g as the containers refused (R60) is the model's choice (log 23), and that a creation raises UNCOVERED ahead
of QUEUE_HIGH is its reading (log 13). -/
def Obligations.TopupAndCancelMoveOneSlotsDemand : Prop :=
  ∀ (s : State) (i : SlotId) (n : Byte), s.resetN = .high →
    let x := s.slot i
    let g := min n.toNat (x.cfg.mc - x.ordered)
    let c := Instr.topup .ep i.val n
    let moved (t : State) (y : Slot) (d : DemandQueue) : Prop :=
      t = { s with slots := t.slots, demand := d, queues := t.queues, ports := t.ports } ∧ OnlySlot s t i ∧ t.slot i = y
    (s.openLine i = s.demand.lines.find? fun y => decide (y.slot = i)) ∧
    (∀ a b : DemandClass, a.better b = if a = .urgent ∨ b = .urgent then .urgent
      else if a = .kanban ∨ b = .kanban then .kanban else .topup) ∧
    (s.mode = .cold → ∃ t, exec c s = .next t ∧ OnlyAnswered s t .ep .notActive .empty) ∧
    (s.mode ≠ .cold →
      (n = 0 → ∃ t, exec c s = .next t ∧ OnlyAnswered s t .ep .badArg .empty) ∧
      (∀ k, 191 < k → ∃ t, exec (.topup .ep k n) s = .next t ∧ OnlyAnswered s t .ep .badArg .empty) ∧
      (n ≠ 0 → x.cfg.kind = .sequenced ∨ x.cfg.status = .inactive →
        ∃ t, exec c s = .next t ∧ OnlyAnswered s t .ep .wrongState .empty) ∧
      (n ≠ 0 → x.cfg.kind = .kanban → x.cfg.status ≠ .inactive →
        (g = 0 → ∃ t, exec c s = .next t ∧ OnlyAnswered s t .ep .atMax (.limit .slot)) ∧
        (g ≠ 0 → ∀ d, s.openLine i = some d → ∃ t, exec c s = .next t ∧ Answered s t .ep .ok (.granted g) ∧
          t.queues = s.queues ∧ moved t { x with ordered := x.ordered + g } { s.demand with
            lines := s.demand.lines.map fun y =>
              if y.slot = i then { y with containers := y.containers + g, cls := y.cls.better .topup } else y }) ∧
        (g ≠ 0 → s.openLine i = none → s.demand.lines.length < 112 →
          let uncovered := (s.mapSlot i).isNone
          let high := s.demand.lines.length + 1 = s.demand.watermark ∧ s.demand.highArmed = true
          let u := if uncovered then s.raise (.uncovered i g) else s
          ∃ t, exec c s = .next t ∧ Answered s t .ep .ok (.granted g) ∧
          t.queues = (if high then u.raise (.queueHigh i s.demand.watermark) else u).queues ∧
          moved t { x with ordered := x.ordered + g, blocked := false } { s.demand with
            lines := s.demand.lines ++ [⟨i, g, .topup, s.plant, 0, uncovered⟩]
            highArmed := s.demand.highArmed && !decide high }) ∧
        (g ≠ 0 → s.openLine i = none → 112 ≤ s.demand.lines.length →
          ∃ t, exec c s = .next t ∧ Answered s t .ep .atMax (.limit .queue) ∧
          moved t x { s.demand with fullArmed := false } ∧
          t.queues = (if s.demand.fullArmed then s.raise (.queueFull i .topup g) else s).queues))) ∧
    (∀ k, 191 < k → ∃ t, exec (.cancelDemand .ep k) s = .next t ∧ OnlyAnswered s t .ep .badArg .empty) ∧
    (s.openLine i = none → ∃ t, exec (.cancelDemand .ep i.val) s = .next t ∧
      OnlyAnswered s t .ep .ok (.demandCancelled 0 none)) ∧
    (∀ d, s.openLine i = some d → ∃ t, exec (.cancelDemand .ep i.val) s = .next t ∧
      Answered s t .ep .ok (.demandCancelled d.containers (some d.cls)) ∧ t.queues = s.queues ∧
      let rest := s.demand.lines.filter fun y => decide (y.slot ≠ i)
      moved t { x with ordered := x.ordered - d.containers } { s.demand with
        lines := rest, highArmed := s.demand.highArmed || decide (rest.length < s.demand.watermark)
        fullArmed := s.demand.fullArmed || decide (rest.length < 112) })

/-- CLEAR_DISCREPANCY (R152): refused in COLD, for a slot above 191, and while the slot still disagrees; otherwise DISCREPANT and
WITHHELD are cleared, answered as they were, and a KANBAN slot evaluates. -/
def Obligations.ClearDiscrepancyNeedsAgreement : Prop :=
  ∀ (s : State) (i : SlotId), s.resetN = .high →
    let x := s.slot i
    (s.mode = .cold → ∀ n, ∃ t, exec (.clearDiscrepancy .ep n) s = .next t ∧ OnlyAnswered s t .ep .notActive .empty) ∧
    (s.mode ≠ .cold → ∀ n, 191 < n →
      ∃ t, exec (.clearDiscrepancy .ep n) s = .next t ∧ OnlyAnswered s t .ep .badArg .empty) ∧
    (s.mode ≠ .cold → 0 < x.disCount → ∃ t, exec (.clearDiscrepancy .ep i.val) s = .next t ∧
      OnlyAnswered s t .ep .stillPresent (.disagreement x.disKind x.disCount)) ∧
    (s.mode ≠ .cold → x.disCount = 0 →
      let cleared : State := { s with slots := s.slots.set i { x with discrepant := none, withheld := false } }
      let u := cleared.evaluate i
      ∃ t, exec (.clearDiscrepancy .ep i.val) s = .next t ∧
        Answered s t .ep .ok (.discrepancyCleared (x.discrepant != none) x.withheld) ∧
        t = { u with ports := t.ports } ∧ OnlySlot s t i ∧
        SameButOrders { x with discrepant := none, withheld := false } (t.slot i) ∧
        (x.cfg.kind = .sequenced → t = { cleared with ports := t.ports }))

/-- START, STOP and RUN_RESET by device mode (R177, R178, R179, R181), and what a run reset leaves: every block's run state cleared
and the plan kept (R23, R41, R62, R74, R81, R96, R142, R154, R155, R175); an attention output is released, since N is at least 1.
MODE_CHANGED is raised after the reset. A STOP settles what a decisecond before it still had due, which is the model's choice
(log 7); it is stated where nothing is due. -/
def Obligations.ModeRequestsMoveTheMode : Prop :=
  ∀ s : State, s.resetN = .high →
    let ready := (∃ r, (s.route r).cfg.timing.enabled = true) ∧ ∃ i, (s.slot i).cfg.status = .active
    let enters (u : State) (m : DeviceMode) (t : State) : Prop :=
      Answered u t .ep .ok .empty ∧
      t = { u with mode := m, queues := (u.raise (.modeChanged m s.mode)).queues, ports := t.ports }
    let resets (u : State) : Prop :=
      u = { s with plant := 0, clocks := u.clocks, routes := u.routes, slots := u.slots, seqs := u.seqs,
                   demand := u.demand, applyState := .idle, ports := u.ports, queues := u.queues } ∧
      (∀ l, u.clock l = { s.clock l with
        time := 0, fired := false, isOpen := match (s.clock l).mode with
          | .follow => (s.clock l).run == .high | .startOnce | .held => false | .stopOnce | .opened => true }) ∧
      (∀ r, let x := s.route r
        let g := x.next.getD x.cfg.timing
        u.route r = { x with
          cfg := { x.cfg with timing := g }, next := none, c := 0, lap := 0, late := false, lateCount := 0,
          overdueCount := 0, heldCount := 0, missedCount := 0, skippedCount := 0, due := none, pointer := 0,
          current := none, mismatches := 0, buffers := (u.route r).buffers }) ∧
      (∀ r h, u.buffer r h = { s.buffer r h with state := .free, lines := [] }) ∧
      (∀ i, let x := s.slot i
        let full := x.cfg.mc * x.cfg.cq * 1000
        u.slot i = { cfg := x.cfg, oh := if x.cfg.kind = .sequenced then 0 else
          match x.cfg.start with | .full => full | .parts n => min (n * 1000) full }) ∧
      (∀ l, u.seq l = { units := [], last := none }) ∧
      u.demand = { s.demand with
        lines := [], highArmed := true, fullArmed := true, returnsDropped := 0, ordersRefused := 0 } ∧
      (∀ p, u.port p = { s.port p with frameErrors := 0 }) ∧
      ∀ p, u.queue p = { s.queue p with
        items := [], marker := false, lost := 0, attn := decide ((s.queue p).threshold = 0) }
    (s.mode = .cold →
      (ready → ∃ u t, resets u ∧ exec (.start .ep) s = .next t ∧ enters u .active t) ∧
      (¬ready → ∃ t, exec (.start .ep) s = .next t ∧ OnlyAnswered s t .ep .notReady .empty) ∧
      (∃ t, exec (.stop .ep) s = .next t ∧ OnlyAnswered s t .ep .wrongState .empty) ∧
      ∃ t, exec (.runReset .ep) s = .next t ∧ OnlyAnswered s t .ep .wrongState .empty) ∧
    (s.mode = .standby →
      (∃ t, exec (.start .ep) s = .next t ∧ enters s .active t) ∧
      (∃ t, exec (.stop .ep) s = .next t ∧ OnlyAnswered s t .ep .ok .empty) ∧
      ∃ u t, resets u ∧ exec (.runReset .ep) s = .next t ∧ enters u .standby t) ∧
    (s.mode = .active →
      (∃ t, exec (.start .ep) s = .next t ∧ OnlyAnswered s t .ep .ok .empty) ∧
      ((∀ r, (s.route r).due = none) → ∃ t, exec (.stop .ep) s = .next t ∧ enters s .standby t) ∧
      ∃ t, exec (.runReset .ep) s = .next t ∧ OnlyAnswered s t .ep .wrongState .empty)
end

