-- ==== Sys2Proof/Laws/State.lean ====
section
/-!
SUPPORT. One lemma for each field after each named update of State, and the reading of one part after an update of one part,
so that no later proof unfolds a record update.
-/

namespace Sys2Proof.Machine

open Sys2Proof

variable (s : State)

/-! ## Fields an update leaves alone -/

@[simp] theorem State.modSlot_pending (i : SlotId) (f : Slot → Slot) : (s.modSlot i f).pending = s.pending := rfl
@[simp] theorem State.modSlot_resetN (i : SlotId) (f : Slot → Slot) : (s.modSlot i f).resetN = s.resetN := rfl
@[simp] theorem State.modSlot_mode (i : SlotId) (f : Slot → Slot) : (s.modSlot i f).mode = s.mode := rfl
@[simp] theorem State.modSlot_plant (i : SlotId) (f : Slot → Slot) : (s.modSlot i f).plant = s.plant := rfl
@[simp] theorem State.modSlot_clocks (i : SlotId) (f : Slot → Slot) : (s.modSlot i f).clocks = s.clocks := rfl
@[simp] theorem State.modSlot_routes (i : SlotId) (f : Slot → Slot) : (s.modSlot i f).routes = s.routes := rfl
@[simp] theorem State.modSlot_usage (i : SlotId) (f : Slot → Slot) : (s.modSlot i f).usage = s.usage := rfl
@[simp] theorem State.modSlot_seqs (i : SlotId) (f : Slot → Slot) : (s.modSlot i f).seqs = s.seqs := rfl
@[simp] theorem State.modSlot_demand (i : SlotId) (f : Slot → Slot) : (s.modSlot i f).demand = s.demand := rfl
@[simp] theorem State.modSlot_coverage (i : SlotId) (f : Slot → Slot) : (s.modSlot i f).coverage = s.coverage := rfl
@[simp] theorem State.modSlot_diverts (i : SlotId) (f : Slot → Slot) : (s.modSlot i f).diverts = s.diverts := rfl
@[simp] theorem State.modSlot_image (i : SlotId) (f : Slot → Slot) : (s.modSlot i f).image = s.image := rfl
@[simp] theorem State.modSlot_applyState (i : SlotId) (f : Slot → Slot) : (s.modSlot i f).applyState = s.applyState := rfl
@[simp] theorem State.modSlot_ports (i : SlotId) (f : Slot → Slot) : (s.modSlot i f).ports = s.ports := rfl
@[simp] theorem State.modSlot_queues (i : SlotId) (f : Slot → Slot) : (s.modSlot i f).queues = s.queues := rfl

@[simp] theorem State.modRoute_pending (r : RouteId) (f : Route → Route) : (s.modRoute r f).pending = s.pending := rfl
@[simp] theorem State.modRoute_resetN (r : RouteId) (f : Route → Route) : (s.modRoute r f).resetN = s.resetN := rfl
@[simp] theorem State.modRoute_mode (r : RouteId) (f : Route → Route) : (s.modRoute r f).mode = s.mode := rfl
@[simp] theorem State.modRoute_plant (r : RouteId) (f : Route → Route) : (s.modRoute r f).plant = s.plant := rfl
@[simp] theorem State.modRoute_clocks (r : RouteId) (f : Route → Route) : (s.modRoute r f).clocks = s.clocks := rfl
@[simp] theorem State.modRoute_usage (r : RouteId) (f : Route → Route) : (s.modRoute r f).usage = s.usage := rfl
@[simp] theorem State.modRoute_slots (r : RouteId) (f : Route → Route) : (s.modRoute r f).slots = s.slots := rfl
@[simp] theorem State.modRoute_seqs (r : RouteId) (f : Route → Route) : (s.modRoute r f).seqs = s.seqs := rfl
@[simp] theorem State.modRoute_demand (r : RouteId) (f : Route → Route) : (s.modRoute r f).demand = s.demand := rfl
@[simp] theorem State.modRoute_coverage (r : RouteId) (f : Route → Route) : (s.modRoute r f).coverage = s.coverage := rfl
@[simp] theorem State.modRoute_diverts (r : RouteId) (f : Route → Route) : (s.modRoute r f).diverts = s.diverts := rfl
@[simp] theorem State.modRoute_image (r : RouteId) (f : Route → Route) : (s.modRoute r f).image = s.image := rfl
@[simp] theorem State.modRoute_applyState (r : RouteId) (f : Route → Route) : (s.modRoute r f).applyState = s.applyState := rfl
@[simp] theorem State.modRoute_ports (r : RouteId) (f : Route → Route) : (s.modRoute r f).ports = s.ports := rfl
@[simp] theorem State.modRoute_queues (r : RouteId) (f : Route → Route) : (s.modRoute r f).queues = s.queues := rfl

@[simp] theorem State.modBuffer_pending (r : RouteId) (h : Half) (f : Buffer → Buffer) : (s.modBuffer r h f).pending = s.pending := rfl
@[simp] theorem State.modBuffer_resetN (r : RouteId) (h : Half) (f : Buffer → Buffer) : (s.modBuffer r h f).resetN = s.resetN := rfl
@[simp] theorem State.modBuffer_mode (r : RouteId) (h : Half) (f : Buffer → Buffer) : (s.modBuffer r h f).mode = s.mode := rfl
@[simp] theorem State.modBuffer_plant (r : RouteId) (h : Half) (f : Buffer → Buffer) : (s.modBuffer r h f).plant = s.plant := rfl
@[simp] theorem State.modBuffer_clocks (r : RouteId) (h : Half) (f : Buffer → Buffer) : (s.modBuffer r h f).clocks = s.clocks := rfl
@[simp] theorem State.modBuffer_usage (r : RouteId) (h : Half) (f : Buffer → Buffer) : (s.modBuffer r h f).usage = s.usage := rfl
@[simp] theorem State.modBuffer_slots (r : RouteId) (h : Half) (f : Buffer → Buffer) : (s.modBuffer r h f).slots = s.slots := rfl
@[simp] theorem State.modBuffer_seqs (r : RouteId) (h : Half) (f : Buffer → Buffer) : (s.modBuffer r h f).seqs = s.seqs := rfl
@[simp] theorem State.modBuffer_demand (r : RouteId) (h : Half) (f : Buffer → Buffer) : (s.modBuffer r h f).demand = s.demand := rfl
@[simp] theorem State.modBuffer_coverage (r : RouteId) (h : Half) (f : Buffer → Buffer) : (s.modBuffer r h f).coverage = s.coverage := rfl
@[simp] theorem State.modBuffer_diverts (r : RouteId) (h : Half) (f : Buffer → Buffer) : (s.modBuffer r h f).diverts = s.diverts := rfl
@[simp] theorem State.modBuffer_image (r : RouteId) (h : Half) (f : Buffer → Buffer) : (s.modBuffer r h f).image = s.image := rfl
@[simp] theorem State.modBuffer_applyState (r : RouteId) (h : Half) (f : Buffer → Buffer) : (s.modBuffer r h f).applyState = s.applyState := rfl
@[simp] theorem State.modBuffer_ports (r : RouteId) (h : Half) (f : Buffer → Buffer) : (s.modBuffer r h f).ports = s.ports := rfl
@[simp] theorem State.modBuffer_queues (r : RouteId) (h : Half) (f : Buffer → Buffer) : (s.modBuffer r h f).queues = s.queues := rfl

@[simp] theorem State.modSeq_pending (l : Line) (f : LineSequence → LineSequence) : (s.modSeq l f).pending = s.pending := rfl
@[simp] theorem State.modSeq_resetN (l : Line) (f : LineSequence → LineSequence) : (s.modSeq l f).resetN = s.resetN := rfl
@[simp] theorem State.modSeq_mode (l : Line) (f : LineSequence → LineSequence) : (s.modSeq l f).mode = s.mode := rfl
@[simp] theorem State.modSeq_plant (l : Line) (f : LineSequence → LineSequence) : (s.modSeq l f).plant = s.plant := rfl
@[simp] theorem State.modSeq_clocks (l : Line) (f : LineSequence → LineSequence) : (s.modSeq l f).clocks = s.clocks := rfl
@[simp] theorem State.modSeq_routes (l : Line) (f : LineSequence → LineSequence) : (s.modSeq l f).routes = s.routes := rfl
@[simp] theorem State.modSeq_usage (l : Line) (f : LineSequence → LineSequence) : (s.modSeq l f).usage = s.usage := rfl
@[simp] theorem State.modSeq_slots (l : Line) (f : LineSequence → LineSequence) : (s.modSeq l f).slots = s.slots := rfl
@[simp] theorem State.modSeq_demand (l : Line) (f : LineSequence → LineSequence) : (s.modSeq l f).demand = s.demand := rfl
@[simp] theorem State.modSeq_coverage (l : Line) (f : LineSequence → LineSequence) : (s.modSeq l f).coverage = s.coverage := rfl
@[simp] theorem State.modSeq_diverts (l : Line) (f : LineSequence → LineSequence) : (s.modSeq l f).diverts = s.diverts := rfl
@[simp] theorem State.modSeq_image (l : Line) (f : LineSequence → LineSequence) : (s.modSeq l f).image = s.image := rfl
@[simp] theorem State.modSeq_applyState (l : Line) (f : LineSequence → LineSequence) : (s.modSeq l f).applyState = s.applyState := rfl
@[simp] theorem State.modSeq_ports (l : Line) (f : LineSequence → LineSequence) : (s.modSeq l f).ports = s.ports := rfl
@[simp] theorem State.modSeq_queues (l : Line) (f : LineSequence → LineSequence) : (s.modSeq l f).queues = s.queues := rfl

@[simp] theorem State.modClock_pending (l : Line) (f : LineClock → LineClock) : (s.modClock l f).pending = s.pending := rfl
@[simp] theorem State.modClock_resetN (l : Line) (f : LineClock → LineClock) : (s.modClock l f).resetN = s.resetN := rfl
@[simp] theorem State.modClock_mode (l : Line) (f : LineClock → LineClock) : (s.modClock l f).mode = s.mode := rfl
@[simp] theorem State.modClock_plant (l : Line) (f : LineClock → LineClock) : (s.modClock l f).plant = s.plant := rfl
@[simp] theorem State.modClock_routes (l : Line) (f : LineClock → LineClock) : (s.modClock l f).routes = s.routes := rfl
@[simp] theorem State.modClock_usage (l : Line) (f : LineClock → LineClock) : (s.modClock l f).usage = s.usage := rfl
@[simp] theorem State.modClock_slots (l : Line) (f : LineClock → LineClock) : (s.modClock l f).slots = s.slots := rfl
@[simp] theorem State.modClock_seqs (l : Line) (f : LineClock → LineClock) : (s.modClock l f).seqs = s.seqs := rfl
@[simp] theorem State.modClock_demand (l : Line) (f : LineClock → LineClock) : (s.modClock l f).demand = s.demand := rfl
@[simp] theorem State.modClock_coverage (l : Line) (f : LineClock → LineClock) : (s.modClock l f).coverage = s.coverage := rfl
@[simp] theorem State.modClock_diverts (l : Line) (f : LineClock → LineClock) : (s.modClock l f).diverts = s.diverts := rfl
@[simp] theorem State.modClock_image (l : Line) (f : LineClock → LineClock) : (s.modClock l f).image = s.image := rfl
@[simp] theorem State.modClock_applyState (l : Line) (f : LineClock → LineClock) : (s.modClock l f).applyState = s.applyState := rfl
@[simp] theorem State.modClock_ports (l : Line) (f : LineClock → LineClock) : (s.modClock l f).ports = s.ports := rfl
@[simp] theorem State.modClock_queues (l : Line) (f : LineClock → LineClock) : (s.modClock l f).queues = s.queues := rfl

@[simp] theorem State.modPort_pending (p : Port) (f : PortUnit → PortUnit) : (s.modPort p f).pending = s.pending := rfl
@[simp] theorem State.modPort_resetN (p : Port) (f : PortUnit → PortUnit) : (s.modPort p f).resetN = s.resetN := rfl
@[simp] theorem State.modPort_mode (p : Port) (f : PortUnit → PortUnit) : (s.modPort p f).mode = s.mode := rfl
@[simp] theorem State.modPort_plant (p : Port) (f : PortUnit → PortUnit) : (s.modPort p f).plant = s.plant := rfl
@[simp] theorem State.modPort_clocks (p : Port) (f : PortUnit → PortUnit) : (s.modPort p f).clocks = s.clocks := rfl
@[simp] theorem State.modPort_routes (p : Port) (f : PortUnit → PortUnit) : (s.modPort p f).routes = s.routes := rfl
@[simp] theorem State.modPort_usage (p : Port) (f : PortUnit → PortUnit) : (s.modPort p f).usage = s.usage := rfl
@[simp] theorem State.modPort_slots (p : Port) (f : PortUnit → PortUnit) : (s.modPort p f).slots = s.slots := rfl
@[simp] theorem State.modPort_seqs (p : Port) (f : PortUnit → PortUnit) : (s.modPort p f).seqs = s.seqs := rfl
@[simp] theorem State.modPort_demand (p : Port) (f : PortUnit → PortUnit) : (s.modPort p f).demand = s.demand := rfl
@[simp] theorem State.modPort_coverage (p : Port) (f : PortUnit → PortUnit) : (s.modPort p f).coverage = s.coverage := rfl
@[simp] theorem State.modPort_diverts (p : Port) (f : PortUnit → PortUnit) : (s.modPort p f).diverts = s.diverts := rfl
@[simp] theorem State.modPort_image (p : Port) (f : PortUnit → PortUnit) : (s.modPort p f).image = s.image := rfl
@[simp] theorem State.modPort_applyState (p : Port) (f : PortUnit → PortUnit) : (s.modPort p f).applyState = s.applyState := rfl
@[simp] theorem State.modPort_queues (p : Port) (f : PortUnit → PortUnit) : (s.modPort p f).queues = s.queues := rfl

@[simp] theorem State.modQueue_pending (p : Port) (f : NoticeQueue → NoticeQueue) : (s.modQueue p f).pending = s.pending := rfl
@[simp] theorem State.modQueue_resetN (p : Port) (f : NoticeQueue → NoticeQueue) : (s.modQueue p f).resetN = s.resetN := rfl
@[simp] theorem State.modQueue_mode (p : Port) (f : NoticeQueue → NoticeQueue) : (s.modQueue p f).mode = s.mode := rfl
@[simp] theorem State.modQueue_plant (p : Port) (f : NoticeQueue → NoticeQueue) : (s.modQueue p f).plant = s.plant := rfl
@[simp] theorem State.modQueue_clocks (p : Port) (f : NoticeQueue → NoticeQueue) : (s.modQueue p f).clocks = s.clocks := rfl
@[simp] theorem State.modQueue_routes (p : Port) (f : NoticeQueue → NoticeQueue) : (s.modQueue p f).routes = s.routes := rfl
@[simp] theorem State.modQueue_usage (p : Port) (f : NoticeQueue → NoticeQueue) : (s.modQueue p f).usage = s.usage := rfl
@[simp] theorem State.modQueue_slots (p : Port) (f : NoticeQueue → NoticeQueue) : (s.modQueue p f).slots = s.slots := rfl
@[simp] theorem State.modQueue_seqs (p : Port) (f : NoticeQueue → NoticeQueue) : (s.modQueue p f).seqs = s.seqs := rfl
@[simp] theorem State.modQueue_demand (p : Port) (f : NoticeQueue → NoticeQueue) : (s.modQueue p f).demand = s.demand := rfl
@[simp] theorem State.modQueue_coverage (p : Port) (f : NoticeQueue → NoticeQueue) : (s.modQueue p f).coverage = s.coverage := rfl
@[simp] theorem State.modQueue_diverts (p : Port) (f : NoticeQueue → NoticeQueue) : (s.modQueue p f).diverts = s.diverts := rfl
@[simp] theorem State.modQueue_image (p : Port) (f : NoticeQueue → NoticeQueue) : (s.modQueue p f).image = s.image := rfl
@[simp] theorem State.modQueue_applyState (p : Port) (f : NoticeQueue → NoticeQueue) : (s.modQueue p f).applyState = s.applyState := rfl
@[simp] theorem State.modQueue_ports (p : Port) (f : NoticeQueue → NoticeQueue) : (s.modQueue p f).ports = s.ports := rfl

@[simp] theorem State.modDemand_pending (f : DemandQueue → DemandQueue) : (s.modDemand f).pending = s.pending := rfl
@[simp] theorem State.modDemand_resetN (f : DemandQueue → DemandQueue) : (s.modDemand f).resetN = s.resetN := rfl
@[simp] theorem State.modDemand_mode (f : DemandQueue → DemandQueue) : (s.modDemand f).mode = s.mode := rfl
@[simp] theorem State.modDemand_plant (f : DemandQueue → DemandQueue) : (s.modDemand f).plant = s.plant := rfl
@[simp] theorem State.modDemand_clocks (f : DemandQueue → DemandQueue) : (s.modDemand f).clocks = s.clocks := rfl
@[simp] theorem State.modDemand_routes (f : DemandQueue → DemandQueue) : (s.modDemand f).routes = s.routes := rfl
@[simp] theorem State.modDemand_usage (f : DemandQueue → DemandQueue) : (s.modDemand f).usage = s.usage := rfl
@[simp] theorem State.modDemand_slots (f : DemandQueue → DemandQueue) : (s.modDemand f).slots = s.slots := rfl
@[simp] theorem State.modDemand_seqs (f : DemandQueue → DemandQueue) : (s.modDemand f).seqs = s.seqs := rfl
@[simp] theorem State.modDemand_coverage (f : DemandQueue → DemandQueue) : (s.modDemand f).coverage = s.coverage := rfl
@[simp] theorem State.modDemand_diverts (f : DemandQueue → DemandQueue) : (s.modDemand f).diverts = s.diverts := rfl
@[simp] theorem State.modDemand_image (f : DemandQueue → DemandQueue) : (s.modDemand f).image = s.image := rfl
@[simp] theorem State.modDemand_applyState (f : DemandQueue → DemandQueue) : (s.modDemand f).applyState = s.applyState := rfl
@[simp] theorem State.modDemand_ports (f : DemandQueue → DemandQueue) : (s.modDemand f).ports = s.ports := rfl
@[simp] theorem State.modDemand_queues (f : DemandQueue → DemandQueue) : (s.modDemand f).queues = s.queues := rfl

@[simp] theorem State.modImage_pending (f : Image → Image) : (s.modImage f).pending = s.pending := rfl
@[simp] theorem State.modImage_resetN (f : Image → Image) : (s.modImage f).resetN = s.resetN := rfl
@[simp] theorem State.modImage_mode (f : Image → Image) : (s.modImage f).mode = s.mode := rfl
@[simp] theorem State.modImage_plant (f : Image → Image) : (s.modImage f).plant = s.plant := rfl
@[simp] theorem State.modImage_clocks (f : Image → Image) : (s.modImage f).clocks = s.clocks := rfl
@[simp] theorem State.modImage_routes (f : Image → Image) : (s.modImage f).routes = s.routes := rfl
@[simp] theorem State.modImage_usage (f : Image → Image) : (s.modImage f).usage = s.usage := rfl
@[simp] theorem State.modImage_slots (f : Image → Image) : (s.modImage f).slots = s.slots := rfl
@[simp] theorem State.modImage_seqs (f : Image → Image) : (s.modImage f).seqs = s.seqs := rfl
@[simp] theorem State.modImage_demand (f : Image → Image) : (s.modImage f).demand = s.demand := rfl
@[simp] theorem State.modImage_coverage (f : Image → Image) : (s.modImage f).coverage = s.coverage := rfl
@[simp] theorem State.modImage_diverts (f : Image → Image) : (s.modImage f).diverts = s.diverts := rfl
@[simp] theorem State.modImage_applyState (f : Image → Image) : (s.modImage f).applyState = s.applyState := rfl
@[simp] theorem State.modImage_ports (f : Image → Image) : (s.modImage f).ports = s.ports := rfl
@[simp] theorem State.modImage_queues (f : Image → Image) : (s.modImage f).queues = s.queues := rfl

@[simp] theorem State.raise_pending (e : Event) : (s.raise e).pending = s.pending := rfl
@[simp] theorem State.raise_resetN (e : Event) : (s.raise e).resetN = s.resetN := rfl
@[simp] theorem State.raise_mode (e : Event) : (s.raise e).mode = s.mode := rfl
@[simp] theorem State.raise_plant (e : Event) : (s.raise e).plant = s.plant := rfl
@[simp] theorem State.raise_clocks (e : Event) : (s.raise e).clocks = s.clocks := rfl
@[simp] theorem State.raise_routes (e : Event) : (s.raise e).routes = s.routes := rfl
@[simp] theorem State.raise_usage (e : Event) : (s.raise e).usage = s.usage := rfl
@[simp] theorem State.raise_slots (e : Event) : (s.raise e).slots = s.slots := rfl
@[simp] theorem State.raise_seqs (e : Event) : (s.raise e).seqs = s.seqs := rfl
@[simp] theorem State.raise_demand (e : Event) : (s.raise e).demand = s.demand := rfl
@[simp] theorem State.raise_coverage (e : Event) : (s.raise e).coverage = s.coverage := rfl
@[simp] theorem State.raise_diverts (e : Event) : (s.raise e).diverts = s.diverts := rfl
@[simp] theorem State.raise_image (e : Event) : (s.raise e).image = s.image := rfl
@[simp] theorem State.raise_applyState (e : Event) : (s.raise e).applyState = s.applyState := rfl
@[simp] theorem State.raise_ports (e : Event) : (s.raise e).ports = s.ports := rfl

@[simp] theorem reply_pending (p : Port) (st : Status) (b : Body) : (reply p st b s).pending = s.pending := rfl
@[simp] theorem reply_resetN (p : Port) (st : Status) (b : Body) : (reply p st b s).resetN = s.resetN := rfl
@[simp] theorem reply_mode (p : Port) (st : Status) (b : Body) : (reply p st b s).mode = s.mode := rfl
@[simp] theorem reply_plant (p : Port) (st : Status) (b : Body) : (reply p st b s).plant = s.plant := rfl
@[simp] theorem reply_clocks (p : Port) (st : Status) (b : Body) : (reply p st b s).clocks = s.clocks := rfl
@[simp] theorem reply_routes (p : Port) (st : Status) (b : Body) : (reply p st b s).routes = s.routes := rfl
@[simp] theorem reply_usage (p : Port) (st : Status) (b : Body) : (reply p st b s).usage = s.usage := rfl
@[simp] theorem reply_slots (p : Port) (st : Status) (b : Body) : (reply p st b s).slots = s.slots := rfl
@[simp] theorem reply_seqs (p : Port) (st : Status) (b : Body) : (reply p st b s).seqs = s.seqs := rfl
@[simp] theorem reply_demand (p : Port) (st : Status) (b : Body) : (reply p st b s).demand = s.demand := rfl
@[simp] theorem reply_coverage (p : Port) (st : Status) (b : Body) : (reply p st b s).coverage = s.coverage := rfl
@[simp] theorem reply_diverts (p : Port) (st : Status) (b : Body) : (reply p st b s).diverts = s.diverts := rfl
@[simp] theorem reply_image (p : Port) (st : Status) (b : Body) : (reply p st b s).image = s.image := rfl
@[simp] theorem reply_applyState (p : Port) (st : Status) (b : Body) : (reply p st b s).applyState = s.applyState := rfl
@[simp] theorem reply_queues (p : Port) (st : Status) (b : Body) : (reply p st b s).queues = s.queues := rfl

/-! ## The part an update changes -/

@[simp] theorem State.modDemand_demand (f : DemandQueue → DemandQueue) : (s.modDemand f).demand = f s.demand := rfl
@[simp] theorem State.modImage_image (f : Image → Image) : (s.modImage f).image = f s.image := rfl

@[simp] theorem State.slot_modSlot_self (i : SlotId) (f : Slot → Slot) : (s.modSlot i f).slot i = f (s.slot i) := by
  simp [State.slot, State.modSlot]

@[simp] theorem State.slot_modSlot_ne {i j : SlotId} (f : Slot → Slot) (h : j ≠ i) :
    (s.modSlot i f).slot j = s.slot j := by
  have h' : i.val ≠ j.val := fun e => h (Fin.ext e.symm)
  simp [State.slot, State.modSlot, Vector.getElem_set_ne, h']

/-- Reading a slot after a change of one: the changed record at that slot, the old one elsewhere. -/
theorem State.slot_modSlot (i j : SlotId) (f : Slot → Slot) :
    (s.modSlot i f).slot j = if j = i then f (s.slot i) else s.slot j := by
  by_cases h : j = i
  · subst h; simp
  · simp [h]

@[simp] theorem State.route_modRoute_self (r : RouteId) (f : Route → Route) :
    (s.modRoute r f).route r = f (s.route r) := by
  simp [State.route, State.modRoute]

@[simp] theorem State.route_modRoute_ne {r q : RouteId} (f : Route → Route) (h : q ≠ r) :
    (s.modRoute r f).route q = s.route q := by
  have h' : r.val ≠ q.val := fun e => h (Fin.ext e.symm)
  simp [State.route, State.modRoute, Vector.getElem_set_ne, h']

/-- Reading a route after a change of one. -/
theorem State.route_modRoute (r q : RouteId) (f : Route → Route) :
    (s.modRoute r f).route q = if q = r then f (s.route r) else s.route q := by
  by_cases h : q = r
  · subst h; simp
  · simp [h]

@[simp] theorem PerLine.get_modify_self {α : Type} (x : PerLine α) (l : Line) (f : α → α) :
    (x.modify l f).get l = f (x.get l) := by
  cases l <;> rfl

@[simp] theorem PerLine.get_modify_ne {α : Type} (x : PerLine α) {l m : Line} (f : α → α) (h : m ≠ l) :
    (x.modify l f).get m = x.get m := by
  cases l <;> cases m <;> first | rfl | exact absurd rfl h

@[simp] theorem PerLine.get_map {α β : Type} (x : PerLine α) (f : α → β) (l : Line) : (x.map f).get l = f (x.get l) := by
  cases l <;> rfl

@[simp] theorem PerPort.get_modify_self {α : Type} (x : PerPort α) (p : Port) (f : α → α) :
    (x.modify p f).get p = f (x.get p) := by
  cases p <;> rfl

@[simp] theorem PerPort.get_modify_ne {α : Type} (x : PerPort α) {p q : Port} (f : α → α) (h : q ≠ p) :
    (x.modify p f).get q = x.get q := by
  cases p <;> cases q <;> first | rfl | exact absurd rfl h

@[simp] theorem PerPort.get_map {α β : Type} (x : PerPort α) (f : Port → α → β) (p : Port) :
    (x.map f).get p = f p (x.get p) := by
  cases p <;> rfl

@[simp] theorem Pair.get_modify_self {α : Type} (x : Pair α) (h : Half) (f : α → α) :
    (x.modify h f).get h = f (x.get h) := by
  cases h <;> rfl

@[simp] theorem Pair.get_modify_ne {α : Type} (x : Pair α) {h k : Half} (f : α → α) (e : k ≠ h) :
    (x.modify h f).get k = x.get k := by
  cases h <;> cases k <;> first | rfl | exact absurd rfl e

@[simp] theorem Pair.get_modify_other {α : Type} (x : Pair α) (h : Half) (f : α → α) :
    (x.modify h f).get h.other = x.get h.other := by
  cases h <;> rfl

@[simp] theorem State.queue_modQueue_self (p : Port) (f : NoticeQueue → NoticeQueue) :
    (s.modQueue p f).queue p = f (s.queue p) := by
  simp [State.queue, State.modQueue]

@[simp] theorem State.queue_modQueue_ne {p q : Port} (f : NoticeQueue → NoticeQueue) (h : q ≠ p) :
    (s.modQueue p f).queue q = s.queue q := by
  simp [State.queue, State.modQueue, h]

@[simp] theorem State.port_modPort_self (p : Port) (f : PortUnit → PortUnit) :
    (s.modPort p f).port p = f (s.port p) := by
  simp [State.port, State.modPort]

@[simp] theorem State.port_modPort_ne {p q : Port} (f : PortUnit → PortUnit) (h : q ≠ p) :
    (s.modPort p f).port q = s.port q := by
  simp [State.port, State.modPort, h]

@[simp] theorem State.seq_modSeq_self (l : Line) (f : LineSequence → LineSequence) :
    (s.modSeq l f).seq l = f (s.seq l) := by
  simp [State.seq, State.modSeq]

@[simp] theorem State.seq_modSeq_ne {l m : Line} (f : LineSequence → LineSequence) (h : m ≠ l) :
    (s.modSeq l f).seq m = s.seq m := by
  simp [State.seq, State.modSeq, h]

@[simp] theorem State.clock_modClock_self (l : Line) (f : LineClock → LineClock) :
    (s.modClock l f).clock l = f (s.clock l) := by
  simp [State.clock, State.modClock]

@[simp] theorem State.clock_modClock_ne {l m : Line} (f : LineClock → LineClock) (h : m ≠ l) :
    (s.modClock l f).clock m = s.clock m := by
  simp [State.clock, State.modClock, h]

@[simp] theorem State.buffer_modBuffer_self (r : RouteId) (h : Half) (f : Buffer → Buffer) :
    (s.modBuffer r h f).buffer r h = f (s.buffer r h) := by
  simp [State.buffer, State.modBuffer]

@[simp] theorem State.buffer_modBuffer_ne (r : RouteId) {h k : Half} (f : Buffer → Buffer) (e : k ≠ h) :
    (s.modBuffer r h f).buffer r k = s.buffer r k := by
  simp [State.buffer, State.modBuffer, e]

@[simp] theorem State.buffer_modBuffer_route_ne {r q : RouteId} (h k : Half) (f : Buffer → Buffer) (e : q ≠ r) :
    (s.modBuffer r h f).buffer q k = s.buffer q k := by
  simp [State.buffer, State.modBuffer, e]

/-- A table after the same change of every entry. -/
@[simp] theorem getElem_mapTable {α β : Type} {n : Nat} (f : α → β) (xs : Vector α n) (i : Nat) (h : i < n) :
    (mapTable f xs)[i] = f xs[i] := by
  simp [mapTable]

/-! ## The accessors see through the fields they do not read -/

@[simp] theorem State.modRoute_slot (r : RouteId) (f : Route → Route) (i' : SlotId) : (s.modRoute r f).slot i' = s.slot i' := rfl
@[simp] theorem State.modBuffer_slot (r : RouteId) (h : Half) (f : Buffer → Buffer) (i' : SlotId) : (s.modBuffer r h f).slot i' = s.slot i' := rfl
@[simp] theorem State.modSeq_slot (l : Line) (f : LineSequence → LineSequence) (i' : SlotId) : (s.modSeq l f).slot i' = s.slot i' := rfl
@[simp] theorem State.modClock_slot (l : Line) (f : LineClock → LineClock) (i' : SlotId) : (s.modClock l f).slot i' = s.slot i' := rfl
@[simp] theorem State.modPort_slot (p : Port) (f : PortUnit → PortUnit) (i' : SlotId) : (s.modPort p f).slot i' = s.slot i' := rfl
@[simp] theorem State.modQueue_slot (p : Port) (f : NoticeQueue → NoticeQueue) (i' : SlotId) : (s.modQueue p f).slot i' = s.slot i' := rfl
@[simp] theorem State.modDemand_slot (f : DemandQueue → DemandQueue) (i' : SlotId) : (s.modDemand f).slot i' = s.slot i' := rfl
@[simp] theorem State.modImage_slot (f : Image → Image) (i' : SlotId) : (s.modImage f).slot i' = s.slot i' := rfl
@[simp] theorem State.raise_slot (e : Event) (i' : SlotId) : (s.raise e).slot i' = s.slot i' := rfl
@[simp] theorem reply_slot (p : Port) (st : Status) (b : Body) (i' : SlotId) :
    (reply p st b s).slot i' = s.slot i' := rfl
@[simp] theorem State.modSlot_route (i : SlotId) (f : Slot → Slot) (r' : RouteId) : (s.modSlot i f).route r' = s.route r' := rfl
@[simp] theorem State.modSeq_route (l : Line) (f : LineSequence → LineSequence) (r' : RouteId) : (s.modSeq l f).route r' = s.route r' := rfl
@[simp] theorem State.modClock_route (l : Line) (f : LineClock → LineClock) (r' : RouteId) : (s.modClock l f).route r' = s.route r' := rfl
@[simp] theorem State.modPort_route (p : Port) (f : PortUnit → PortUnit) (r' : RouteId) : (s.modPort p f).route r' = s.route r' := rfl
@[simp] theorem State.modQueue_route (p : Port) (f : NoticeQueue → NoticeQueue) (r' : RouteId) : (s.modQueue p f).route r' = s.route r' := rfl
@[simp] theorem State.modDemand_route (f : DemandQueue → DemandQueue) (r' : RouteId) : (s.modDemand f).route r' = s.route r' := rfl
@[simp] theorem State.modImage_route (f : Image → Image) (r' : RouteId) : (s.modImage f).route r' = s.route r' := rfl
@[simp] theorem State.raise_route (e : Event) (r' : RouteId) : (s.raise e).route r' = s.route r' := rfl
@[simp] theorem reply_route (p : Port) (st : Status) (b : Body) (r' : RouteId) :
    (reply p st b s).route r' = s.route r' := rfl
@[simp] theorem State.modSlot_buffer (i : SlotId) (f : Slot → Slot) (r' : RouteId) (h' : Half) : (s.modSlot i f).buffer r' h' = s.buffer r' h' := rfl
@[simp] theorem State.modSeq_buffer (l : Line) (f : LineSequence → LineSequence) (r' : RouteId) (h' : Half) : (s.modSeq l f).buffer r' h' = s.buffer r' h' := rfl
@[simp] theorem State.modClock_buffer (l : Line) (f : LineClock → LineClock) (r' : RouteId) (h' : Half) : (s.modClock l f).buffer r' h' = s.buffer r' h' := rfl
@[simp] theorem State.modPort_buffer (p : Port) (f : PortUnit → PortUnit) (r' : RouteId) (h' : Half) : (s.modPort p f).buffer r' h' = s.buffer r' h' := rfl
@[simp] theorem State.modQueue_buffer (p : Port) (f : NoticeQueue → NoticeQueue) (r' : RouteId) (h' : Half) : (s.modQueue p f).buffer r' h' = s.buffer r' h' := rfl
@[simp] theorem State.modDemand_buffer (f : DemandQueue → DemandQueue) (r' : RouteId) (h' : Half) : (s.modDemand f).buffer r' h' = s.buffer r' h' := rfl
@[simp] theorem State.modImage_buffer (f : Image → Image) (r' : RouteId) (h' : Half) : (s.modImage f).buffer r' h' = s.buffer r' h' := rfl
@[simp] theorem State.raise_buffer (e : Event) (r' : RouteId) (h' : Half) : (s.raise e).buffer r' h' = s.buffer r' h' := rfl
@[simp] theorem reply_buffer (p : Port) (st : Status) (b : Body) (r' : RouteId) (h' : Half) :
    (reply p st b s).buffer r' h' = s.buffer r' h' := rfl
@[simp] theorem State.modSlot_seq (i : SlotId) (f : Slot → Slot) (l' : Line) : (s.modSlot i f).seq l' = s.seq l' := rfl
@[simp] theorem State.modRoute_seq (r : RouteId) (f : Route → Route) (l' : Line) : (s.modRoute r f).seq l' = s.seq l' := rfl
@[simp] theorem State.modBuffer_seq (r : RouteId) (h : Half) (f : Buffer → Buffer) (l' : Line) : (s.modBuffer r h f).seq l' = s.seq l' := rfl
@[simp] theorem State.modClock_seq (l : Line) (f : LineClock → LineClock) (l' : Line) : (s.modClock l f).seq l' = s.seq l' := rfl
@[simp] theorem State.modPort_seq (p : Port) (f : PortUnit → PortUnit) (l' : Line) : (s.modPort p f).seq l' = s.seq l' := rfl
@[simp] theorem State.modQueue_seq (p : Port) (f : NoticeQueue → NoticeQueue) (l' : Line) : (s.modQueue p f).seq l' = s.seq l' := rfl
@[simp] theorem State.modDemand_seq (f : DemandQueue → DemandQueue) (l' : Line) : (s.modDemand f).seq l' = s.seq l' := rfl
@[simp] theorem State.modImage_seq (f : Image → Image) (l' : Line) : (s.modImage f).seq l' = s.seq l' := rfl
@[simp] theorem State.raise_seq (e : Event) (l' : Line) : (s.raise e).seq l' = s.seq l' := rfl
@[simp] theorem reply_seq (p : Port) (st : Status) (b : Body) (l' : Line) :
    (reply p st b s).seq l' = s.seq l' := rfl
@[simp] theorem State.modSlot_clock (i : SlotId) (f : Slot → Slot) (l' : Line) : (s.modSlot i f).clock l' = s.clock l' := rfl
@[simp] theorem State.modRoute_clock (r : RouteId) (f : Route → Route) (l' : Line) : (s.modRoute r f).clock l' = s.clock l' := rfl
@[simp] theorem State.modBuffer_clock (r : RouteId) (h : Half) (f : Buffer → Buffer) (l' : Line) : (s.modBuffer r h f).clock l' = s.clock l' := rfl
@[simp] theorem State.modSeq_clock (l : Line) (f : LineSequence → LineSequence) (l' : Line) : (s.modSeq l f).clock l' = s.clock l' := rfl
@[simp] theorem State.modPort_clock (p : Port) (f : PortUnit → PortUnit) (l' : Line) : (s.modPort p f).clock l' = s.clock l' := rfl
@[simp] theorem State.modQueue_clock (p : Port) (f : NoticeQueue → NoticeQueue) (l' : Line) : (s.modQueue p f).clock l' = s.clock l' := rfl
@[simp] theorem State.modDemand_clock (f : DemandQueue → DemandQueue) (l' : Line) : (s.modDemand f).clock l' = s.clock l' := rfl
@[simp] theorem State.modImage_clock (f : Image → Image) (l' : Line) : (s.modImage f).clock l' = s.clock l' := rfl
@[simp] theorem State.raise_clock (e : Event) (l' : Line) : (s.raise e).clock l' = s.clock l' := rfl
@[simp] theorem reply_clock (p : Port) (st : Status) (b : Body) (l' : Line) :
    (reply p st b s).clock l' = s.clock l' := rfl
@[simp] theorem State.modSlot_port (i : SlotId) (f : Slot → Slot) (p' : Port) : (s.modSlot i f).port p' = s.port p' := rfl
@[simp] theorem State.modRoute_port (r : RouteId) (f : Route → Route) (p' : Port) : (s.modRoute r f).port p' = s.port p' := rfl
@[simp] theorem State.modBuffer_port (r : RouteId) (h : Half) (f : Buffer → Buffer) (p' : Port) : (s.modBuffer r h f).port p' = s.port p' := rfl
@[simp] theorem State.modSeq_port (l : Line) (f : LineSequence → LineSequence) (p' : Port) : (s.modSeq l f).port p' = s.port p' := rfl
@[simp] theorem State.modClock_port (l : Line) (f : LineClock → LineClock) (p' : Port) : (s.modClock l f).port p' = s.port p' := rfl
@[simp] theorem State.modQueue_port (p : Port) (f : NoticeQueue → NoticeQueue) (p' : Port) : (s.modQueue p f).port p' = s.port p' := rfl
@[simp] theorem State.modDemand_port (f : DemandQueue → DemandQueue) (p' : Port) : (s.modDemand f).port p' = s.port p' := rfl
@[simp] theorem State.modImage_port (f : Image → Image) (p' : Port) : (s.modImage f).port p' = s.port p' := rfl
@[simp] theorem State.raise_port (e : Event) (p' : Port) : (s.raise e).port p' = s.port p' := rfl
@[simp] theorem State.modSlot_queue (i : SlotId) (f : Slot → Slot) (p' : Port) : (s.modSlot i f).queue p' = s.queue p' := rfl
@[simp] theorem State.modRoute_queue (r : RouteId) (f : Route → Route) (p' : Port) : (s.modRoute r f).queue p' = s.queue p' := rfl
@[simp] theorem State.modBuffer_queue (r : RouteId) (h : Half) (f : Buffer → Buffer) (p' : Port) : (s.modBuffer r h f).queue p' = s.queue p' := rfl
@[simp] theorem State.modSeq_queue (l : Line) (f : LineSequence → LineSequence) (p' : Port) : (s.modSeq l f).queue p' = s.queue p' := rfl
@[simp] theorem State.modClock_queue (l : Line) (f : LineClock → LineClock) (p' : Port) : (s.modClock l f).queue p' = s.queue p' := rfl
@[simp] theorem State.modPort_queue (p : Port) (f : PortUnit → PortUnit) (p' : Port) : (s.modPort p f).queue p' = s.queue p' := rfl
@[simp] theorem State.modDemand_queue (f : DemandQueue → DemandQueue) (p' : Port) : (s.modDemand f).queue p' = s.queue p' := rfl
@[simp] theorem State.modImage_queue (f : Image → Image) (p' : Port) : (s.modImage f).queue p' = s.queue p' := rfl
@[simp] theorem reply_queue (p : Port) (st : Status) (b : Body) (p' : Port) :
    (reply p st b s).queue p' = s.queue p' := rfl

@[simp] theorem reply_port_self (p : Port) (st : Status) (b : Body) :
    (reply p st b s).port p =
      { s.port p with selected := true, rx := .response ⟨st, b⟩ 0, sent := some fill } := by
  simp [reply]

@[simp] theorem reply_port_ne {p q : Port} (st : Status) (b : Body) (h : q ≠ p) :
    (reply p st b s).port q = s.port q := by
  simp [reply, h]

@[simp] theorem State.raise_queue (e : Event) (p : Port) :
    (s.raise e).queue p = if e.routedTo p then (s.queue p).arrive ⟨e, s.plant⟩ else s.queue p := by
  simp [State.queue, State.raise]

end Sys2Proof.Machine
end

