-- ==== Sys2Proof/Laws/Demand.lean ====
section
/-!
SUPPORT. What the demand queue's operations can do, said once: each moves only the demand queue, the notice queues and one slot's
ordered and ORDER_BLOCKED, so that a proof about a draw, a delivery, a return or an apply cites these and unfolds none of them.
-/

namespace Sys2Proof.Machine

open Sys2Proof

/-! ## Table extensionality -/

/-- Two states with the same slots have the same slot table. -/
theorem State.slots_ext {s t : State} (h : ∀ i, t.slot i = s.slot i) : t.slots = s.slots :=
  Vector.ext fun i hi => h ⟨i, hi⟩

/-- Two states with the same routes have the same route table. -/
theorem State.routes_ext {s t : State} (h : ∀ r, t.route r = s.route r) : t.routes = s.routes :=
  Vector.ext fun i hi => h ⟨i, hi⟩

/-- Two lines' values that agree at each line are the same. -/
theorem PerLine.ext_get {α : Type} {x y : PerLine α} (h : ∀ l, x.get l = y.get l) : x = y := by
  cases x; cases y; exact congr (congrArg _ (h .a)) (h .b)

/-- Four ports' values that agree at each port are the same. -/
theorem PerPort.ext_get {α : Type} {x y : PerPort α} (h : ∀ p, x.get p = y.get p) : x = y := by
  have h1 := h .lp
  have h2 := h .tp
  have h3 := h .sp
  have h4 := h .ep
  cases x; cases y; simp_all [PerPort.get]

/-- Two halves' values that agree at each half are the same. -/
theorem Pair.ext_get {α : Type} {x y : Pair α} (h : ∀ k, x.get k = y.get k) : x = y := by
  cases x; cases y; exact congr (congrArg _ (h .lower)) (h .upper)

/-! ## A record that differs in its orders only -/

@[refl] theorem SameButOrders.refl (x : Slot) : SameButOrders x x := rfl

theorem SameButOrders.trans {x y z : Slot} (h : SameButOrders x y) (k : SameButOrders y z) : SameButOrders x z := by
  unfold SameButOrders at *; rw [k, h]

theorem SameButOrders.cfg {x y : Slot} (h : SameButOrders x y) : y.cfg = x.cfg := by rw [h]
theorem SameButOrders.oh {x y : Slot} (h : SameButOrders x y) : y.oh = x.oh := by rw [h]
theorem SameButOrders.short {x y : Slot} (h : SameButOrders x y) : y.short = x.short := by rw [h]
theorem SameButOrders.marks {x y : Slot} (h : SameButOrders x y) : y.marks = x.marks := by rw [h]
theorem SameButOrders.withheld {x y : Slot} (h : SameButOrders x y) : y.withheld = x.withheld := by rw [h]
theorem SameButOrders.discrepant {x y : Slot} (h : SameButOrders x y) : y.discrepant = x.discrepant := by rw [h]
theorem SameButOrders.disKind {x y : Slot} (h : SameButOrders x y) : y.disKind = x.disKind := by rw [h]
theorem SameButOrders.disCount {x y : Slot} (h : SameButOrders x y) : y.disCount = x.disCount := by rw [h]

/-! ## Operations that move one slot's orders -/

/-- From s to t only the demand queue, the notice queues and slot i's ordered and ORDER_BLOCKED may have moved. -/
structure MovesOrders (i : SlotId) (s t : State) : Prop where
  rest : t = { s with slots := t.slots, demand := t.demand, queues := t.queues }
  others : OnlySlot s t i
  own : SameButOrders (s.slot i) (t.slot i)

namespace MovesOrders

variable {i : SlotId} {s t u : State}

theorem refl (i : SlotId) (s : State) : MovesOrders i s s := ⟨rfl, fun _ _ => rfl, .refl _⟩

theorem trans (h : MovesOrders i s t) (k : MovesOrders i t u) : MovesOrders i s u :=
  ⟨by rw [k.rest, h.rest], fun j hj => (k.others j hj).trans (h.others j hj), h.own.trans k.own⟩

theorem pending (h : MovesOrders i s t) : t.pending = s.pending := by rw [h.rest]
theorem resetN (h : MovesOrders i s t) : t.resetN = s.resetN := by rw [h.rest]
theorem mode (h : MovesOrders i s t) : t.mode = s.mode := by rw [h.rest]
theorem plant (h : MovesOrders i s t) : t.plant = s.plant := by rw [h.rest]
theorem clocks (h : MovesOrders i s t) : t.clocks = s.clocks := by rw [h.rest]
theorem routes (h : MovesOrders i s t) : t.routes = s.routes := by rw [h.rest]
theorem usage (h : MovesOrders i s t) : t.usage = s.usage := by rw [h.rest]
theorem seqs (h : MovesOrders i s t) : t.seqs = s.seqs := by rw [h.rest]
theorem coverage (h : MovesOrders i s t) : t.coverage = s.coverage := by rw [h.rest]
theorem diverts (h : MovesOrders i s t) : t.diverts = s.diverts := by rw [h.rest]
theorem image (h : MovesOrders i s t) : t.image = s.image := by rw [h.rest]
theorem applyState (h : MovesOrders i s t) : t.applyState = s.applyState := by rw [h.rest]
theorem ports (h : MovesOrders i s t) : t.ports = s.ports := by rw [h.rest]

theorem route (h : MovesOrders i s t) (r : RouteId) : t.route r = s.route r := by
  unfold State.route; rw [h.routes]
theorem buffer (h : MovesOrders i s t) (r : RouteId) (k : Half) : t.buffer r k = s.buffer r k := by
  unfold State.buffer; rw [h.route]

/-- Every slot's record is the same but for its orders. -/
theorem slot (h : MovesOrders i s t) (j : SlotId) : SameButOrders (s.slot j) (t.slot j) := by
  by_cases hj : j = i
  · subst hj; exact h.own
  · rw [h.others j hj]

theorem cfg (h : MovesOrders i s t) (j : SlotId) : (t.slot j).cfg = (s.slot j).cfg := (h.slot j).cfg

theorem mapCode (h : MovesOrders i s t) (code : Location) : t.mapCode code = s.mapCode code := by
  unfold State.mapCode State.decidingWindow
  rw [h.diverts, h.coverage]
  simp [h.route]

theorem mapSlot (h : MovesOrders i s t) (j : SlotId) : t.mapSlot j = s.mapSlot j := by
  unfold State.mapSlot; rw [h.cfg, h.mapCode]

end MovesOrders

/-- A change of the demand queue moves no record. -/
theorem modDemand_moves (i : SlotId) (s : State) (f : DemandQueue → DemandQueue) : MovesOrders i s (s.modDemand f) :=
  ⟨rfl, fun _ _ => rfl, .refl _⟩

/-- Raising a notice moves no record. -/
theorem raise_moves (i : SlotId) (s : State) (e : Event) : MovesOrders i s (s.raise e) :=
  ⟨rfl, fun _ _ => rfl, .refl _⟩

/-- A change of a slot's orders moves that slot alone. -/
theorem modSlot_moves (i : SlotId) (s : State) {f : Slot → Slot} (h : SameButOrders (s.slot i) (f (s.slot i))) :
    MovesOrders i s (s.modSlot i f) :=
  ⟨rfl, fun j hj => by simp [hj], by simpa using h⟩

/-- Writing ORDER_BLOCKED moves that slot's orders alone. -/
theorem setBlocked_moves (i : SlotId) (s : State) (b : Bool) :
    MovesOrders i s (s.modSlot i fun x => { x with blocked := b }) :=
  modSlot_moves i s rfl

theorem removeOpen_moves (i : SlotId) (s : State) : MovesOrders i s (s.removeOpen i) := modDemand_moves ..
theorem modOpen_moves (i : SlotId) (s : State) (f : DemandLine → DemandLine) : MovesOrders i s (s.modOpen i f) :=
  modDemand_moves ..
theorem mergeOpen_moves (i : SlotId) (s : State) (n : Nat) (cls : DemandClass) : MovesOrders i s (s.mergeOpen i n cls) :=
  modOpen_moves i s _
theorem countDropped_moves (i : SlotId) (s : State) (n : Nat) : MovesOrders i s (s.countDropped n) := modDemand_moves ..
theorem lowerOrdered_moves (i : SlotId) (s : State) (n : Nat) : MovesOrders i s (s.lowerOrdered i n) :=
  modSlot_moves i s rfl
theorem raiseOrdered_moves (i : SlotId) (s : State) (n : Nat) : MovesOrders i s (s.raiseOrdered i n) :=
  modSlot_moves i s rfl

theorem takeOpen_moves (i : SlotId) (s : State) (n : Nat) : MovesOrders i s (s.takeOpen i n) := by
  unfold State.takeOpen
  split
  · exact removeOpen_moves i s
  · exact modOpen_moves i s _

theorem judgeHigh_moves (i j : SlotId) (s : State) : MovesOrders i s (s.judgeHigh j) := by
  unfold State.judgeHigh
  split
  · exact (raise_moves i s _).trans (modDemand_moves i _ _)
  · exact .refl i s

theorem createOpen_moves (i : SlotId) (s : State) (n : Nat) (cls : DemandClass) :
    MovesOrders i s (s.createOpen i n cls) := by
  unfold State.createOpen
  dsimp only
  refine .trans ?_ (judgeHigh_moves i i _)
  split
  · exact ((modDemand_moves i s _).trans (setBlocked_moves i _ false)).trans (raise_moves ..)
  · exact (modDemand_moves i s _).trans (setBlocked_moves i _ false)

theorem refuseLine_moves (i j : SlotId) (s : State) (cause : FullCause) (n : Nat) :
    MovesOrders i s (s.refuseLine j cause n) := by
  unfold State.refuseLine
  split
  · exact (raise_moves i s _).trans (modDemand_moves i _ _)
  · exact .refl i s

theorem order_moves (i : SlotId) (s : State) (n : Nat) : MovesOrders i s (s.order i n) := by
  unfold State.order
  split
  · exact ((mergeOpen_moves i s n _).trans (raiseOrdered_moves i _ n)).trans (setBlocked_moves i _ _)
  · split
    · exact (createOpen_moves i s n _).trans (raiseOrdered_moves i _ n)
    · exact ((modDemand_moves i s _).trans (setBlocked_moves i _ _)).trans (refuseLine_moves i i _ _ n)

/-- A reorder evaluation moves only the slot's orders, the demand queue and the notices. -/
theorem evaluate_moves (i : SlotId) (s : State) : MovesOrders i s (s.evaluate i) := by
  unfold State.evaluate
  dsimp only
  split
  · exact .refl i s
  · split
    · exact modSlot_moves i s rfl
    · split
      · exact modSlot_moves i s rfl
      · exact order_moves i s _

theorem placeReturn_moves (i : SlotId) (s : State) (n : Nat) (cls : DemandClass) :
    MovesOrders i s (s.placeReturn i n cls) := by
  unfold State.placeReturn
  split
  · exact mergeOpen_moves ..
  · split
    · exact createOpen_moves ..
    · exact ((lowerOrdered_moves i s n).trans (countDropped_moves i _ n)).trans (refuseLine_moves i i _ _ n)

/-- A return of bins moves only the slot's orders, the demand queue and the notices. -/
theorem returnBins_moves (i : SlotId) (s : State) (n : Nat) (cls : DemandClass) :
    MovesOrders i s (s.returnBins i n cls) := by
  unfold State.returnBins
  dsimp only
  split
  · exact countDropped_moves ..
  · exact (lowerOrdered_moves i s n).trans (countDropped_moves i _ n)
  · split
    · split
      · exact (lowerOrdered_moves ..).trans (countDropped_moves ..)
      · exact ((lowerOrdered_moves ..).trans (countDropped_moves ..)).trans (placeReturn_moves ..)
    · exact placeReturn_moves ..

theorem cancelOpen_moves (i : SlotId) (s : State) (n : Nat) : MovesOrders i s (s.cancelOpen i n) := by
  unfold State.cancelOpen
  dsimp only
  split
  · exact .refl i s
  · exact (takeOpen_moves ..).trans (lowerOrdered_moves ..)

/-! ## Operations over many slots -/

/-- From s to t only the demand queue, the notice queues and the slots' ordered and ORDER_BLOCKED may have moved. -/
structure MovesDemand (s t : State) : Prop where
  rest : t = { s with slots := t.slots, demand := t.demand, queues := t.queues }
  slot : ∀ i, SameButOrders (s.slot i) (t.slot i)

theorem MovesOrders.demand {i : SlotId} {s t : State} (h : MovesOrders i s t) : MovesDemand s t := ⟨h.rest, h.slot⟩

namespace MovesDemand

variable {s t u : State}

theorem refl (s : State) : MovesDemand s s := ⟨rfl, fun _ => .refl _⟩

theorem trans (h : MovesDemand s t) (k : MovesDemand t u) : MovesDemand s u :=
  ⟨by rw [k.rest, h.rest], fun i => (h.slot i).trans (k.slot i)⟩

/-- A fold of operations that each move demand only moves demand only. -/
theorem foldl {α : Type} {f : State → α → State} (h : ∀ s a, MovesDemand s (f s a)) (as : List α) (s : State) :
    MovesDemand s (as.foldl f s) := by
  induction as generalizing s with
  | nil => exact refl s
  | cons a as ih => exact (h s a).trans (ih _)

theorem pending (h : MovesDemand s t) : t.pending = s.pending := by rw [h.rest]
theorem resetN (h : MovesDemand s t) : t.resetN = s.resetN := by rw [h.rest]
theorem mode (h : MovesDemand s t) : t.mode = s.mode := by rw [h.rest]
theorem plant (h : MovesDemand s t) : t.plant = s.plant := by rw [h.rest]
theorem routes (h : MovesDemand s t) : t.routes = s.routes := by rw [h.rest]
theorem usage (h : MovesDemand s t) : t.usage = s.usage := by rw [h.rest]
theorem seqs (h : MovesDemand s t) : t.seqs = s.seqs := by rw [h.rest]
theorem image (h : MovesDemand s t) : t.image = s.image := by rw [h.rest]
theorem applyState (h : MovesDemand s t) : t.applyState = s.applyState := by rw [h.rest]
theorem ports (h : MovesDemand s t) : t.ports = s.ports := by rw [h.rest]

end MovesDemand

/-- The re-test of the uncovered flags moves no record, only the flags and the notices. -/
theorem retestUncovered_moves (s : State) : MovesDemand s s.retestUncovered := by
  unfold State.retestUncovered
  dsimp only
  refine .trans (modDemand_moves 0 s _).demand (.foldl (fun t x => ?_) _ _)
  exact (raise_moves x.slot t _).demand

end Sys2Proof.Machine
end

