-- ==== Sys2Proof/Laws/Slots.lean ====
section
/-!
SUPPORT. Slots: what an evaluation, a draw and a delivery do to a record, and what a pass over many slots leaves, each slot taken
once.
-/

namespace Sys2Proof.Machine

open Sys2Proof

/-! ## A pass over slots or routes -/

/-- A pass over slots, each taken once: a step that touches its own slot alone and relates its record before and after, whatever
has been done to the others, relates every record of the list and leaves the rest. `Q` is what the steps keep. -/
theorem foldl_eachSlot {f : State → SlotId → State} {Q : State → Prop} {R : SlotId → Slot → Slot → Prop}
    (only : ∀ s i, Q s → OnlySlot s (f s i) i) (keeps : ∀ s i, Q s → Q (f s i))
    (own : ∀ s i, Q s → R i (s.slot i) ((f s i).slot i)) :
    ∀ (l : List SlotId) (s : State), l.Nodup → Q s →
      Q (l.foldl f s) ∧ (∀ i ∈ l, R i (s.slot i) ((l.foldl f s).slot i)) ∧ ∀ i, i ∉ l → (l.foldl f s).slot i = s.slot i
  | [], _, _, hq => ⟨hq, fun _ h => absurd h List.not_mem_nil, fun _ _ => rfl⟩
  | j :: l, s, hn, hq => by
    obtain ⟨hj, hl⟩ := List.nodup_cons.mp hn
    obtain ⟨h1, h2, h3⟩ := foldl_eachSlot only keeps own l (f s j) hl (keeps s j hq)
    refine ⟨h1, fun i hi => ?_, fun i hi => ?_⟩
    · by_cases e : i = j
      · subst e; rw [List.foldl_cons, h3 i hj]; exact own s i hq
      · have := h2 i ((List.mem_cons.mp hi).resolve_left e)
        rwa [only s j hq i e] at this
    · obtain ⟨hne, hni⟩ := (⟨List.ne_of_not_mem_cons hi, List.not_mem_of_not_mem_cons hi⟩ : i ≠ j ∧ i ∉ l)
      rw [List.foldl_cons, h3 i hni, only s j hq i hne]

/-- The same for routes. -/
theorem foldl_eachRoute {f : State → RouteId → State} {Q : State → Prop} {R : RouteId → Route → Route → Prop}
    (only : ∀ s r, Q s → OnlyRoute s (f s r) r) (keeps : ∀ s r, Q s → Q (f s r))
    (own : ∀ s r, Q s → R r (s.route r) ((f s r).route r)) :
    ∀ (l : List RouteId) (s : State), l.Nodup → Q s →
      Q (l.foldl f s) ∧ (∀ r ∈ l, R r (s.route r) ((l.foldl f s).route r)) ∧ ∀ r, r ∉ l → (l.foldl f s).route r = s.route r
  | [], _, _, hq => ⟨hq, fun _ h => absurd h List.not_mem_nil, fun _ _ => rfl⟩
  | j :: l, s, hn, hq => by
    obtain ⟨hj, hl⟩ := List.nodup_cons.mp hn
    obtain ⟨h1, h2, h3⟩ := foldl_eachRoute only keeps own l (f s j) hl (keeps s j hq)
    refine ⟨h1, fun i hi => ?_, fun i hi => ?_⟩
    · by_cases e : i = j
      · subst e; rw [List.foldl_cons, h3 i hj]; exact own s i hq
      · have := h2 i ((List.mem_cons.mp hi).resolve_left e)
        rwa [only s j hq i e] at this
    · obtain ⟨hne, hni⟩ := (⟨List.ne_of_not_mem_cons hi, List.not_mem_of_not_mem_cons hi⟩ : i ≠ j ∧ i ∉ l)
      rw [List.foldl_cons, h3 i hni, only s j hq i hne]

theorem slotIds_nodup : slotIds.Nodup := List.nodup_finRange 192
theorem routeIds_nodup : routeIds.Nodup := List.nodup_finRange 6
@[simp] theorem mem_slotIds (i : SlotId) : i ∈ slotIds := List.mem_finRange i
@[simp] theorem mem_routeIds (r : RouteId) : r ∈ routeIds := List.mem_finRange r

theorem State.slotsWhere_nodup (s : State) (p : Slot → Bool) : (s.slotsWhere p).Nodup := slotIds_nodup.filter _

@[simp] theorem State.mem_slotsWhere (s : State) (p : Slot → Bool) (i : SlotId) : i ∈ s.slotsWhere p ↔ p (s.slot i) = true := by
  simp [State.slotsWhere]

/-! ## The evaluation -/

/-- A SEQUENCED slot's evaluation does nothing (R18). -/
theorem State.evaluate_sequenced {s : State} {i : SlotId} (h : (s.slot i).cfg.kind = .sequenced) : s.evaluate i = s := by
  simp [State.evaluate, h]

/-- An evaluation that places no order clears ORDER_BLOCKED (R19). -/
theorem State.evaluate_quiet {s : State} {i : SlotId} (hk : (s.slot i).cfg.kind = .kanban)
    (h : (s.slot i).cfg.status ≠ .active ∨ (s.slot i).withheld = true ∨ (s.slot i).cfg.ropMp ≤ (s.slot i).position) :
    s.evaluate i = s.modSlot i fun x => { x with blocked := false } := by
  unfold State.evaluate
  dsimp only
  rw [if_neg (by simp [hk])]
  split
  · rfl
  · rw [if_pos (by simp_all)]

/-- An evaluation below the reorder point orders (R19). -/
theorem State.evaluate_orders {s : State} {i : SlotId} (hk : (s.slot i).cfg.kind = .kanban)
    (ha : (s.slot i).cfg.status = .active) (hw : (s.slot i).withheld = false)
    (h : (s.slot i).position < (s.slot i).cfg.ropMp) : s.evaluate i = s.order i (s.slot i).orderSize := by
  unfold State.evaluate
  dsimp only
  rw [if_neg (by simp [hk]), if_neg (by simp [ha, hw]), if_neg (by omega)]

/-- The arithmetic of R19 in one unit z, with MC = k + 1: below the reorder point the quotient lies between 1 and MC − ordered. -/
theorem order_bounds_unit {k o a z : Nat} (hz : 0 < z) (h : a + o * z < k * z) :
    1 ≤ (k * z + z - (a + o * z)) / z ∧ (k * z + z - (a + o * z)) / z ≤ k + 1 - o ∧ o ≤ k := by
  have ho : o ≤ k := by
    by_contra hge
    have := Nat.mul_le_mul_right z (Nat.le_of_not_le hge)
    omega
  refine ⟨(Nat.le_div_iff_mul_le hz).mpr (by omega), ?_, ho⟩
  have e4 : (k + 1 - o) * z = (k + 1) * z - o * z := Nat.sub_mul ..
  have e5 : (k + 1) * z = k * z + z := Nat.succ_mul ..
  have : k * z + z - (a + o * z) ≤ (k + 1 - o) * z := by omega
  exact (Nat.div_le_div_right this).trans_eq (Nat.mul_div_cancel _ hz)

/-- The same in parts per container c and milliparts. -/
theorem order_bounds {c k o a r : Nat} (hc : 1 ≤ c) (hr : r ≤ k * c) (h : a + o * c * 1000 < r * 1000) :
    1 ≤ ((k + 1) * c * 1000 - (a + o * c * 1000)) / (c * 1000) ∧
    ((k + 1) * c * 1000 - (a + o * c * 1000)) / (c * 1000) ≤ k + 1 - o ∧ o ≤ k := by
  have hr' : r * 1000 ≤ k * (c * 1000) := by rw [← Nat.mul_assoc]; exact Nat.mul_le_mul_right _ hr
  rw [Nat.mul_assoc o] at h ⊢
  rw [Nat.mul_assoc (k + 1), Nat.succ_mul]
  exact order_bounds_unit (Nat.mul_pos hc (by decide)) (h.trans_le hr')

/-- An order below the reorder point asks for at least one container and never for more than MC allows, so the bound of R19 takes
nothing off. -/
theorem Slot.orderSize_eq {x : Slot} (hr : x.cfg.InRange) (hb : x.cfg.Bounded) (h : x.position < x.cfg.ropMp) :
    x.orderSize = (x.cfg.fullMp - x.position) / (x.cfg.cq * 1000) ∧ 1 ≤ x.orderSize ∧ x.ordered + x.orderSize ≤ x.cfg.mc := by
  have hm : x.cfg.mc - 1 + 1 = x.cfg.mc := Nat.sub_add_cancel hr.mc_low
  obtain ⟨h1, h2, h3⟩ := order_bounds hr.cq_low hb.rop h
  rw [hm] at h1 h2
  have e : x.orderSize = (x.cfg.fullMp - x.position) / (x.cfg.cq * 1000) := Nat.min_eq_left h2
  refine ⟨e, e ▸ h1, ?_⟩
  have : x.orderSize ≤ x.cfg.mc - x.ordered := Nat.min_le_right ..
  have := hr.mc_low
  omega

/-! ## Draws -/

/-- A draw moves the demand queue, the notices and its own slot. -/
theorem State.applyDraw_rest (s : State) (i : SlotId) (d : Nat) (seq : SeqNo) :
    s.applyDraw i d seq = { s with
      slots := (s.applyDraw i d seq).slots, demand := (s.applyDraw i d seq).demand, queues := (s.applyDraw i d seq).queues } := by
  unfold State.applyDraw
  dsimp only
  split
  · rfl
  · rw [(evaluate_moves i _).rest]; split <;> rfl

theorem State.applyDraw_only (s : State) (i : SlotId) (d : Nat) (seq : SeqNo) : OnlySlot s (s.applyDraw i d seq) i := by
  intro j hj
  unfold State.applyDraw
  dsimp only
  split
  · rfl
  · rw [(evaluate_moves i _).others j hj]; split <;> simp [hj]

/-- A nonzero draw's effect on the record, orders apart (R14). -/
theorem State.applyDraw_slot (s : State) (i : SlotId) {d : Nat} (seq : SeqNo) (h : d ≠ 0) :
    SameButOrders { (s.slot i).drawn d with short := (s.slot i).short || decide ((s.slot i).oh ≤ d) }
      ((s.applyDraw i d seq).slot i) := by
  unfold State.applyDraw
  rw [if_neg h]
  refine .trans ?_ (evaluate_moves i _).own
  have hz : ((s.slot i).drawn d).oh = (s.slot i).oh - d := rfl
  dsimp only
  split
  next hs =>
    have : (s.slot i).oh ≤ d := by omega
    simp [this, SameButOrders]
  next hs =>
    have : ((s.slot i).short || decide ((s.slot i).oh ≤ d)) = (s.slot i).short := by
      by_cases ho : (s.slot i).oh ≤ d
      · have : (s.slot i).short = true := by simpa [hz, Nat.sub_eq_zero_of_le ho, Slot.drawn] using hs
        simp [this]
      · simp [ho]
    simp [this, SameButOrders, Slot.drawn]

/-- A whole advance's draws move slots, the demand queue and the notices alone. -/
theorem State.drawLine_rest (s : State) (l : Line) (v : Variant) (seq : SeqNo) :
    s.drawLine l v seq = { s with
      slots := (s.drawLine l v seq).slots, demand := (s.drawLine l v seq).demand, queues := (s.drawLine l v seq).queues } := by
  unfold State.drawLine
  split
  · rfl
  · generalize s.slotsWhere (Slot.drawnBy l) = is
    induction is generalizing s with
    | nil => rfl
    | cons i is ih => rw [List.foldl_cons, ih, State.drawSlot, State.applyDraw_rest]

/-- What a whole advance's draws do to every record (R12 to R14). -/
theorem State.drawLine_slot (s : State) (l : Line) (v : Variant) (seq : SeqNo) (i : SlotId) :
    if v ≠ 0 ∧ (s.slot i).drawnBy l = true ∧ s.draw i v ≠ 0 then
      SameButOrders { (s.slot i).drawn (s.draw i v) with short := (s.slot i).short || decide ((s.slot i).oh ≤ s.draw i v) }
        ((s.drawLine l v seq).slot i)
    else (s.drawLine l v seq).slot i = s.slot i := by
  unfold State.drawLine
  by_cases hv : v = 0
  · simp [hv]
  rw [if_neg hv]
  let charge (x : Slot) : Nat :=
    let u := s.usage.get x.cfg.line
    drawMp (u.quantity v x.cfg.group) u.allowance[x.cfg.group] x.cfg.allowance
  have hch : ∀ t : State, t.usage = s.usage → ∀ j, t.draw j v = charge (t.slot j) := fun t ht j => by
    unfold State.draw; rw [ht]
  obtain ⟨-, hin, hout⟩ := foldl_eachSlot (f := State.drawSlot v seq) (Q := fun t => t.usage = s.usage)
    (R := fun _ x y => (charge x = 0 → y = x) ∧ (charge x ≠ 0 → SameButOrders
      { x.drawn (charge x) with short := x.short || decide (x.oh ≤ charge x) } y))
    (fun t j _ => t.applyDraw_only j _ seq) (fun t j ht => by rw [State.drawSlot, State.applyDraw_rest]; exact ht)
    (fun t j ht => by
      rw [State.drawSlot, hch t ht]
      exact ⟨fun h0 => by rw [h0]; simp [State.applyDraw], fun h0 => t.applyDraw_slot j seq h0⟩)
    (s.slotsWhere (Slot.drawnBy l)) s (s.slotsWhere_nodup _) rfl
  rw [hch s rfl i]
  split
  next h => exact (hin i (by simpa using h.2.1)).2 h.2.2
  next h =>
    by_cases hd : (s.slot i).drawnBy l = true
    · exact (hin i (by simpa using hd)).1 (by_contra fun h0 => h ⟨hv, hd, h0⟩)
    · exact hout i (by simpa using hd)

/-! ## Deliveries -/

/-- A delivered bin moves its own slot, the demand queue and the notices. -/
theorem State.deliverBin_rest (s : State) (i : SlotId) :
    s.deliverBin i = { s with
      slots := (s.deliverBin i).slots, demand := (s.deliverBin i).demand, queues := (s.deliverBin i).queues } := by
  unfold State.deliverBin
  split
  · rfl
  · rw [(evaluate_moves i _).rest]; rfl

theorem State.deliverBin_only (s : State) (i : SlotId) : OnlySlot s (s.deliverBin i) i := by
  intro j hj
  unfold State.deliverBin
  split
  · rfl
  · rw [(evaluate_moves i _).others j hj]; simp [hj]

/-- A bin delivered to a KANBAN slot (R16). -/
theorem State.deliverBin_slot {s : State} {i : SlotId} (h : (s.slot i).cfg.kind = .kanban) :
    SameButOrders (s.slot i).delivered ((s.deliverBin i).slot i) := by
  unfold State.deliverBin
  rw [if_neg (by simp [h])]
  simpa using (evaluate_moves i (s.modSlot i Slot.delivered)).own

/-- A delivered line moves its own slot, the demand queue and the notices. -/
theorem State.deliverLine_rest (s : State) (y : ManifestLine) :
    s.deliverLine y = { s with
      slots := (s.deliverLine y).slots, demand := (s.deliverLine y).demand, queues := (s.deliverLine y).queues } := by
  unfold State.deliverLine
  split
  · exact s.deliverBin_rest y.slot
  · rfl

theorem State.deliverLine_only (s : State) (y : ManifestLine) : OnlySlot s (s.deliverLine y) y.slot := by
  intro j hj
  unfold State.deliverLine
  split
  · exact s.deliverBin_only y.slot j hj
  · simp [State.deliverRack, hj]

end Sys2Proof.Machine
end

