-- ==== Sys2Proof/Laws/Lap.lean ====
section
/-!
SUPPORT. The lap tracker: which manifests of a route are live and which one a request finds, handing lines back, and freeing a
buffer.
-/

namespace Sys2Proof.Machine

open Sys2Proof

/-! ## Halves -/

@[simp] theorem Half.other_other (h : Half) : h.other.other = h := by cases h <;> rfl
@[simp] theorem Half.other_ne (h : Half) : h.other ≠ h := by cases h <;> decide
@[simp] theorem Half.ne_other (h : Half) : h ≠ h.other := by cases h <;> decide

/-- Of two halves the second is the first or the other one. -/
theorem Half.eq_or_other (h k : Half) : k = h ∨ k = h.other := by cases h <;> cases k <;> decide

/-! ## The live manifests -/

/-- The live manifests of a route are those whose buffer is not FREE (R97). -/
@[simp] theorem Route.mem_liveHalves (x : Route) (h : Half) : h ∈ x.liveHalves ↔ (x.buffers.get h).live = true := by
  unfold Route.liveHalves
  simp only [List.mem_filter, List.mem_cons, List.not_mem_nil, or_false, and_iff_right_iff_imp]
  intro _
  exact x.older.eq_or_other h

theorem Route.liveHalves_nodup (x : Route) : x.liveHalves.Nodup :=
  List.Nodup.filter _ (by simp)

/-- What a request that names a route and a lap finds is live and has that lap (R97). -/
theorem State.manifest_some {s : State} {r : RouteId} {lap : Lap} {h : Half} (e : s.manifest r lap = some h) :
    (s.buffer r h).live = true ∧ (s.buffer r h).lap = lap :=
  ⟨by simpa [State.buffer] using List.mem_of_find?_eq_some e, by simpa using List.find?_some e⟩

/-- What a search by state finds is live and in that state. -/
theorem State.manifestIn_some {s : State} {r : RouteId} {st : BufferState} {h : Half} (e : s.manifestIn r st = some h) :
    (s.buffer r h).live = true ∧ (s.buffer r h).state = st :=
  ⟨by simpa [State.buffer] using List.mem_of_find?_eq_some e, by simpa using List.find?_some e⟩

/-- A search by a state other than FREE finds nothing exactly where no buffer of the route is in it. -/
theorem State.manifestIn_none {s : State} {r : RouteId} {st : BufferState} (hst : st ≠ .free) :
    s.manifestIn r st = none ↔ ∀ h, (s.buffer r h).state ≠ st := by
  unfold State.manifestIn
  simp only [List.find?_eq_none, Route.mem_liveHalves, beq_iff_eq]
  refine ⟨fun h k e => h k ?_ e, fun h k _ => h k⟩
  have e' : ((s.route r).buffers.get k).state = st := e
  simp [Buffer.live, e', hst]

/-! ## Freeing a buffer -/

/-- Freeing a buffer leaves it FREE with no lines and touches nothing else of it (R136). -/
theorem Route.freed_buffer (x : Route) (h : Half) :
    (x.freed h).buffers.get h = { x.buffers.get h with state := .free, lines := [] } := by
  unfold Route.freed; dsimp only; split <;> simp

/-- Freeing a buffer leaves the other as it was (R136). -/
theorem Route.freed_other (x : Route) (h : Half) : (x.freed h).buffers.get h.other = x.buffers.get h.other := by
  unfold Route.freed; dsimp only; split <;> simp

/-- Freeing a buffer makes a live manifest of the other the older one (R97). -/
theorem Route.freed_older (x : Route) (h : Half) :
    (x.freed h).older = if (x.buffers.get h.other).live then h.other else x.older := by
  unfold Route.freed; dsimp only; split <;> rfl

/-- All that freeing a buffer does to its route: the buffers, which is older, and, for a train, the pointer and the current stop
(R136). -/
theorem Route.freed_rest (x : Route) (h : Half) :
    x.freed h = { x with
      buffers := (x.freed h).buffers
      older := (x.freed h).older
      pointer := if (x.buffers.get h).state = .onRoute then 0 else x.pointer
      current := if (x.buffers.get h).state = .onRoute then none else x.current } := by
  unfold Route.freed
  dsimp only
  split <;> simp [*]

/-! ## Handing lines back -/

/-- A rollback moves one slot's marks alone (R39). -/
theorem State.rollback_only (s : State) (i : SlotId) : OnlySlot s (s.rollback i) i := fun j hj => by
  simp [State.rollback, hj]

/-- A returned line moves slots, the demand queue and the notices alone (R122). -/
theorem State.returnLine_rest (s : State) (x : ManifestLine) (n : Nat) (cls : DemandClass) :
    s.returnLine x n cls = { s with
      slots := (s.returnLine x n cls).slots, demand := (s.returnLine x n cls).demand
      queues := (s.returnLine x n cls).queues } := by
  unfold State.returnLine
  split
  · split
    · rfl
    · exact (returnBins_moves ..).rest
  · rfl

/-- A returned line moves its own slot alone. -/
theorem State.returnLine_only (s : State) (x : ManifestLine) (n : Nat) (cls : DemandClass) :
    OnlySlot s (s.returnLine x n cls) x.slot := by
  unfold State.returnLine
  split
  · split
    · exact fun _ _ => rfl
    · exact (returnBins_moves ..).others
  · exact s.rollback_only x.slot

/-- A returned line moves its slot's record in its orders and, for a rack, in covered-through only. -/
theorem State.returnLine_slot (s : State) (x : ManifestLine) (n : Nat) (cls : DemandClass) (i : SlotId) :
    SameButOrders { s.slot i with marks := ((s.returnLine x n cls).slot i).marks } ((s.returnLine x n cls).slot i) := by
  by_cases hi : i = x.slot
  · subst hi
    unfold State.returnLine
    split
    · split
      · rfl
      · have h := (returnBins_moves x.slot s n cls).own
        rw [h.marks]; exact h
    · simp [State.rollback, SameButOrders]
  · rw [s.returnLine_only x n cls i hi]

/-- Lines handed back one after another move slots, the demand queue and the notices alone. -/
theorem State.foldl_returnPlanned_rest (cls : ManifestLine → DemandClass) (xs : List ManifestLine) (s : State) :
    xs.foldl (State.returnPlanned cls) s = { s with
      slots := (xs.foldl (State.returnPlanned cls) s).slots, demand := (xs.foldl (State.returnPlanned cls) s).demand
      queues := (xs.foldl (State.returnPlanned cls) s).queues } := by
  induction xs generalizing s with
  | nil => rfl
  | cons x xs ih => rw [List.foldl_cons, ih, State.returnPlanned, returnLine_rest]

/-- A slot that none of the lines handed back is for keeps its record. -/
theorem State.foldl_returnPlanned_other (cls : ManifestLine → DemandClass) (i : SlotId) (xs : List ManifestLine) (s : State)
    (h : ∀ x ∈ xs, x.slot ≠ i) : (xs.foldl (State.returnPlanned cls) s).slot i = s.slot i := by
  induction xs generalizing s with
  | nil => rfl
  | cons x xs ih =>
    rw [List.foldl_cons, ih _ fun y hy => h y (List.mem_cons_of_mem _ hy)]
    exact s.returnLine_only x _ _ i (h x List.mem_cons_self).symm

/-- Handing lines back moves slots, the demand queue, the notices and the one buffer's lines alone. -/
theorem State.handBack_rest (s : State) (r : RouteId) (h : Half) (sel : ManifestLine → Bool)
    (cls : ManifestLine → DemandClass) :
    s.handBack r h sel cls = { s with
      slots := ((s.backLines r h sel).foldl (State.returnPlanned cls) s).slots
      demand := ((s.backLines r h sel).foldl (State.returnPlanned cls) s).demand
      queues := ((s.backLines r h sel).foldl (State.returnPlanned cls) s).queues
      routes := (s.modBuffer r h fun b => { b with lines := b.lines.map (markReturned sel) }).routes } := by
  unfold State.handBack
  rw [State.foldl_returnPlanned_rest]
  rfl

/-- The lines handed back become RETURNED, and the buffer is otherwise as it was (R121). -/
theorem State.handBack_buffer (s : State) (r : RouteId) (h : Half) (sel : ManifestLine → Bool)
    (cls : ManifestLine → DemandClass) :
    (s.handBack r h sel cls).buffer r h =
      { s.buffer r h with lines := (s.buffer r h).lines.map (markReturned sel) } := by
  rw [handBack_rest]
  exact (show (s.modBuffer r h _).buffer r h = _ by simp)

/-- LINES_RETURNED changes the queues alone (R123). -/
theorem State.tellReturned_rest (s : State) (r : RouteId) (lap : Lap) (cause : ReturnCause) (n : Nat) :
    s.tellReturned r lap cause n = { s with queues := (s.tellReturned r lap cause n).queues } := by
  unfold State.tellReturned
  split <;> rfl

/-! ## Drops -/

/-- A numbered list's entries are the list's, each under its place. -/
@[simp] theorem mem_numbered {α : Type} {xs : List α} {n : Nat} {y : α} : (n, y) ∈ numbered xs ↔ xs[n]? = some y := by
  unfold numbered
  simp only [List.mem_iff_getElem?, List.getElem?_zip_eq_some]
  refine ⟨?_, fun h => ⟨n, List.getElem?_range (List.getElem?_eq_some_iff.mp h).1, h⟩⟩
  rintro ⟨k, hk, h⟩
  have := (List.getElem?_eq_some_iff.mp hk).2
  rw [List.getElem_range] at this
  exact this ▸ h

/-- Everything a numbered list says of a list. -/
@[simp] theorem map_snd_numbered {α : Type} (xs : List α) : (numbered xs).map (·.2) = xs := by
  unfold numbered
  exact List.map_snd_zip (by simp)

/-- The line a drop hits stands under its number in the buffer, is PLANNED at the stop, and agrees with the label (R131, R132). -/
theorem dropHit_some {m : MatchMode} {mask : PartNo} {label : DropLabel} {lines : List ManifestLine} {stop n : Nat}
    {y : ManifestLine} (h : dropHit m mask label (openLines lines stop) = some (n, y)) :
    lines[n]? = some y ∧ y.stop = stop ∧ y.state = .planned ∧ y.hitBy mask label = true := by
  have key : (n, y) ∈ openLines lines stop ∧ y.hitBy mask label = true := by
    unfold dropHit at h
    split at h
    · exact ⟨List.mem_of_mem_take (List.mem_of_find?_eq_some h), by simpa using List.find?_some h⟩
    · exact ⟨List.mem_of_find?_eq_some h, by simpa using List.find?_some h⟩
  obtain ⟨hm, hh⟩ := key
  have := List.mem_filter.mp hm
  simp only [ManifestLine.openAt, Bool.and_eq_true, beq_iff_eq] at this
  exact ⟨mem_numbered.mp this.1, this.2.1, this.2.2, hh⟩

end Sys2Proof.Machine
end

