-- ==== Sys2Proof/Laws/Notices.lean ====
section
/-!
SUPPORT. Notices: what a copy does to a queue, that every operation on a queue keeps its law (R169 to R173), and raising a list
of notices.
-/

namespace Sys2Proof.Machine

open Sys2Proof

variable {q : NoticeQueue}

/-! ## One queue -/

/-- A judged queue's attention output is as R173 says. -/
theorem NoticeQueue.judge_attn (q : NoticeQueue) :
    q.judge.attn = true ↔ q.threshold ≤ q.items.length ∨ ∃ y ∈ q.items, y.event.urgent = true := by
  simp [NoticeQueue.judge, NoticeQueue.asserted]

/-- A judged queue keeps its law, if its count and its N do. -/
theorem NoticeQueue.judge_law (h : q.items.length ≤ 16) (ht : 1 ≤ q.threshold ∧ q.threshold ≤ 4) : q.judge.Law :=
  ⟨h, ht, rfl⟩

/-- Everything a copy can do to a queue: it joins, it is lost, or the oldest makes room for it; the output is judged. -/
theorem NoticeQueue.arrive_cases (q : NoticeQueue) (n : Notice) :
    (q.items.length < 16 ∧ (q.mode = .halt → q.marker = false) ∧ q.arrive n = (q.join n).judge) ∨
    (q.mode = .halt ∧ (q.marker = true ∨ 16 ≤ q.items.length) ∧ q.arrive n = q.lose.judge) ∨
    (q.mode = .stream ∧ 16 ≤ q.items.length ∧
      q.arrive n = (({ q with items := q.items.tail } : NoticeQueue).lose.join n).judge) := by
  cases hm : q.mode with
  | halt =>
    by_cases h : q.marker = false ∧ q.items.length < 16
    · exact .inl ⟨h.2, fun _ => h.1, by simp [NoticeQueue.arrive, hm, h]⟩
    · refine .inr (.inl ⟨rfl, ?_, by simp only [NoticeQueue.arrive, hm, if_neg h]⟩)
      by_cases hk : q.marker = true
      · exact .inl hk
      · exact .inr (by simp only [Bool.not_eq_true] at hk; simpa [hk] using h)
  | stream =>
    by_cases h : q.items.length < 16
    · exact .inl ⟨h, fun h => (nomatch h), by simp [NoticeQueue.arrive, hm, h]⟩
    · exact .inr (.inr ⟨rfl, by omega, by simp [NoticeQueue.arrive, hm, h]⟩)

/-- A copy keeps the law of a queue. -/
theorem NoticeQueue.arrive_law (h : q.Law) (n : Notice) : (q.arrive n).Law := by
  obtain ⟨hc, -, e⟩ | ⟨-, -, e⟩ | ⟨-, hc, e⟩ := q.arrive_cases n <;> rw [e]
  · exact judge_law (by simp [NoticeQueue.join]; omega) h.threshold
  · exact judge_law h.count h.threshold
  · exact judge_law (by have := h.count; simp [NoticeQueue.join, NoticeQueue.lose]; omega) h.threshold

/-- A copy keeps the lost counter within 16 bits. -/
theorem NoticeQueue.arrive_lost (h : q.lost ≤ 65535) (n : Notice) : (q.arrive n).lost ≤ 65535 := by
  obtain ⟨-, -, e⟩ | ⟨-, -, e⟩ | ⟨-, -, e⟩ := q.arrive_cases n <;> rw [e]
  · exact h
  · exact Nat.min_le_right ..
  · exact Nat.min_le_right ..

/-- A copy leaves a queue's mode and N. -/
theorem NoticeQueue.arrive_mode (q : NoticeQueue) (n : Notice) :
    (q.arrive n).mode = q.mode ∧ (q.arrive n).threshold = q.threshold := by
  obtain ⟨-, -, e⟩ | ⟨-, -, e⟩ | ⟨-, -, e⟩ := q.arrive_cases n <;> rw [e] <;> exact ⟨rfl, rfl⟩

/-- A read keeps the law of a queue. -/
theorem NoticeQueue.read_law (h : q.Law) (k : Nat) : (q.read k).Law :=
  judge_law (by have := h.count; simp; omega) h.threshold

/-- A run reset keeps the law of a queue. -/
theorem NoticeQueue.runReset_law (h : q.Law) : q.runReset.Law := judge_law (by simp) h.threshold

/-! ## Raising a list -/

/-- Raising notices one after another changes the queues alone. -/
theorem State.foldl_raise_rest (es : List Event) (s : State) :
    es.foldl State.raise s = { s with queues := (es.foldl State.raise s).queues } := by
  induction es generalizing s with
  | nil => rfl
  | cons e es ih => rw [List.foldl_cons, ih]; rfl

/-- What the queues become when notices are raised depends on the queues and the plant time alone. -/
theorem State.raise_queues_congr {s t : State} (hq : s.queues = t.queues) (hp : s.plant = t.plant) (e : Event) :
    (s.raise e).queues = (t.raise e).queues := by
  unfold State.raise; rw [hq, hp]

theorem State.foldl_raise_queues_congr {s t : State} (hq : s.queues = t.queues) (hp : s.plant = t.plant) (es : List Event) :
    (es.foldl State.raise s).queues = (es.foldl State.raise t).queues := by
  induction es generalizing s t with
  | nil => exact hq
  | cons e es ih => exact ih (raise_queues_congr hq hp e) hp

/-- Every queue keeps its law when a notice is raised. -/
theorem State.raise_law {s : State} (h : ∀ p, (s.queue p).Law) (e : Event) (p : Port) : ((s.raise e).queue p).Law := by
  rw [raise_queue]; split
  · exact NoticeQueue.arrive_law (h p) _
  · exact h p

/-- Every lost counter stays within 16 bits when a notice is raised. -/
theorem State.raise_lost {s : State} (h : ∀ p, (s.queue p).lost ≤ 65535) (e : Event) (p : Port) :
    ((s.raise e).queue p).lost ≤ 65535 := by
  rw [raise_queue]; split
  · exact NoticeQueue.arrive_lost (h p) _
  · exact h p

end Sys2Proof.Machine
end

