-- ==== Sys2Proof/Laws/Sequence.lean ====
section
/-!
SUPPORT. Sequences: settling an advance, the starvation test as a list of notices, racks, and the marks.
-/

namespace Sys2Proof.Machine

open Sys2Proof

/-! ## Settling -/

/-- An advance whose number is not in the list leaves the list (R30). -/
theorem settle_absent {units : List AnnouncedUnit} {seq : SeqNo} (h : ∀ u ∈ units, u.seq ≠ seq) :
    settle units seq = ⟨.unannounced, [], false, units⟩ := by
  have : units.findIdx? (·.seq == seq) = none := by simpa [List.findIdx?_eq_none_iff] using h
  simp [settle, this]

/-- An advance whose number stands at position k removes the k + 1 first units (R30). -/
theorem settle_found {units : List AnnouncedUnit} {seq : SeqNo} {k : Nat} (h : units.findIdx? (·.seq == seq) = some k) :
    settle units seq =
      ⟨if k = 0 then .head else .pulled, units.take k, (units.take (k + 1)).any (·.mark), units.drop (k + 1)⟩ := by
  simp [settle, h]

/-- The units that stay are the end of the list. -/
theorem settle_rest (units : List AnnouncedUnit) (seq : SeqNo) : (settle units seq).rest <:+ units := by
  unfold settle
  split
  · exact List.suffix_refl _
  · exact List.drop_suffix ..

/-- Dropping units from the front keeps a list's law. -/
theorem LineSequence.Law.suffix {q : LineSequence} (h : q.Law) {units : List AnnouncedUnit} (hs : units <:+ q.units) :
    ({ q with units := units } : LineSequence).Law where
  count := hs.length_le.trans h.count
  consecutive := h.consecutive.suffix hs
  tail u hu := by
    obtain ⟨pre, e⟩ := hs
    refine h.tail u ?_
    have hne : units ≠ [] := fun e => by simp [e] at hu
    rw [← e, List.getLast?_append_of_ne_nil _ hne]
    exact hu

/-- Settling moves the line's list and the notices alone (R30, R31). -/
theorem State.settleList_rest (s : State) (l : Line) (seq : SeqNo) (a : Settled) :
    s.settleList l seq a = { s with seqs := s.seqs.modify l fun q => { q with units := a.rest }
                                    queues := (s.settleList l seq a).queues } := by
  unfold State.settleList
  dsimp only
  split <;> rfl

/-! ## Starvation -/

/-- The notice the test raises for a slot, if any (R34). -/
def State.starved (s : State) (v : Variant) (case : AdvanceCase) (seq : SeqNo) (i : SlotId) : Option Event :=
  if s.qualifies i v then (s.starveReason i case seq).map (.seqStarved i seq) else none

/-- One slot's test raises its notice, if any. -/
theorem State.starveSlot_eq (s : State) (v : Variant) (case : AdvanceCase) (seq : SeqNo) (i : SlotId) :
    State.starveSlot v case seq s i = (s.starved v case seq i).toList.foldl State.raise s := by
  unfold State.starveSlot State.starved
  split
  · cases s.starveReason i case seq <;> rfl
  · rfl

/-- The whole test raises one notice for each starved slot, in ascending slot number, and does nothing else (R34). -/
theorem State.starveLine_eq (s : State) (l : Line) (v : Variant) (case : AdvanceCase) (seq : SeqNo) :
    s.starveLine l v case seq =
      ((s.slotsWhere (Slot.testedBy l)).filterMap (s.starved v case seq)).foldl State.raise s := by
  unfold State.starveLine
  generalize s.slotsWhere (Slot.testedBy l) = is
  have key : ∀ (is : List SlotId) (t : State), (∀ i, t.starved v case seq i = s.starved v case seq i) →
      is.foldl (State.starveSlot v case seq) t = (is.filterMap (s.starved v case seq)).foldl State.raise t := by
    intro is
    induction is with
    | nil => intro t _; rfl
    | cons i is ih =>
      intro t ht
      rw [List.foldl_cons, starveSlot_eq, ht i]
      cases hs : s.starved v case seq i with
      | none => rw [List.filterMap_cons_none hs]; exact ih t ht
      | some e => rw [List.filterMap_cons_some hs]; exact ih (t.raise e) ht
  exact key is s fun _ => rfl

theorem State.starveLine_rest (s : State) (l : Line) (v : Variant) (case : AdvanceCase) (seq : SeqNo) :
    s.starveLine l v case seq = { s with queues := (s.starveLine l v case seq).queues } := by
  rw [starveLine_eq]; exact s.foldl_raise_rest _

/-! ## Racks -/

/-- A rack that a run of units gives is that run's (R36). -/
theorem rackOfUnits_some {units : List AnnouncedUnit} {k : Rack} (h : rackOfUnits units = some k) :
    (∃ u, units.head? = some u ∧ k.first = u.seq) ∧ (∃ u, units.getLast? = some u ∧ k.last = u.seq) ∧
      k.positions = units.length ∧ 1 ≤ units.length := by
  cases units with
  | nil => cases h
  | cons u us =>
    cases h
    exact ⟨⟨u, rfl, rfl⟩, ⟨_, List.getLast?_eq_getLast_of_ne_nil _, rfl⟩, rfl, by simp⟩

/-- What R36 says of a rack: the slot's marks are numbers, the rack has 1 to K positions, and its last unit is after
covered-through. -/
theorem State.eligibleRack_some {s : State} {i : SlotId} {k : Rack} (h : s.eligibleRack i = some k) :
    ∃ m, (s.slot i).marks = some m ∧ 1 ≤ k.positions ∧ k.positions ≤ (s.slot i).cfg.rackSize ∧
      seqAfter k.last m.covered = true := by
  unfold State.eligibleRack at h
  split at h
  · cases h
  next m hm =>
    dsimp only at h
    split at h
    · obtain ⟨-, ⟨u, hu, hl⟩, hp, h1⟩ := rackOfUnits_some h
      refine ⟨m, hm, hp ▸ h1, hp ▸ List.length_take_le .., ?_⟩
      have hu' := List.mem_of_mem_take (List.mem_of_getLast? hu)
      rw [hl]
      exact (List.mem_filter.mp hu').2
    · cases h

end Sys2Proof.Machine
end

