-- ==== Sys2Proof/Laws/Builder.lean ====
section
/-!
SUPPORT. The builder: everything that considering one slot or one candidate can do, that the lines never exceed the room, and what
a selection leaves of the part.
-/

namespace Sys2Proof.Machine

open Sys2Proof

/-! ## The buffer a build fills -/

/-- A build fills a FREE buffer, and the upper one only where the lower is live (R104). -/
theorem Route.freeHalf_some {x : Route} {h : Half} :
    x.freeHalf = some h ↔ (x.buffers.get h).live = false ∧ (h = .upper → x.buffers.lower.live = true) := by
  unfold Route.freeHalf
  cases h <;> by_cases hl : x.buffers.lower.live = true <;> by_cases hu : x.buffers.upper.live = true <;>
    simp_all [Pair.get]

/-- No buffer is filled exactly where both are live (R103). -/
theorem Route.freeHalf_none {x : Route} : x.freeHalf = none ↔ ∀ h, (x.buffers.get h).live = true := by
  unfold Route.freeHalf
  refine ⟨fun h k => ?_, fun h => ?_⟩
  · by_cases hl : x.buffers.lower.live = true <;> by_cases hu : x.buffers.upper.live = true <;> cases k <;>
      simp_all [Pair.get]
  · have hl := h .lower
    have hu := h .upper
    simp_all [Pair.get]

@[simp] theorem Route.filled_buffer (x : Route) (h : Half) (b : Buffer) : (x.filled h b).buffers.get h = b := by
  simp [Route.filled]

@[simp] theorem Route.filled_other (x : Route) (h : Half) (b : Buffer) :
    (x.filled h b).buffers.get h.other = x.buffers.get h.other := by simp [Route.filled]

/-- Filling a buffer makes a live manifest of the other the older, else the new one (R97). -/
theorem Route.filled_older (x : Route) (h : Half) (b : Buffer) :
    (x.filled h b).older = if (x.buffers.get h.other).live then h.other else h := rfl

/-- Filling a buffer moves the buffers and which is older alone (R97). -/
theorem Route.filled_rest (x : Route) (h : Half) (b : Buffer) :
    x.filled h b = { x with buffers := (x.filled h b).buffers, older := (x.filled h b).older } := rfl

/-! ## The carried load -/

@[simp] theorem PerSize.get_modify_self (x : PerSize) (z : SizeClass) (f : Nat → Nat) :
    (x.modify z f).get z = f (x.get z) := by cases z <;> rfl

@[simp] theorem PerSize.get_modify_ne (x : PerSize) {y z : SizeClass} (f : Nat → Nat) (h : y ≠ z) :
    (x.modify z f).get y = x.get y := by cases y <;> cases z <;> first | rfl | exact absurd rfl h

/-- The carried load of a class is the held containers of its lines (R98). -/
theorem carriedLoad_get (lines : List ManifestLine) (z : SizeClass) :
    (carriedLoad lines).get z = ((lines.filter (·.size == z)).map (·.held)).sum := by
  cases z <;> rfl

/-- One more line adds its held containers to its class. -/
theorem carriedLoad_append (lines : List ManifestLine) (y : ManifestLine) (z : SizeClass) :
    (carriedLoad (lines ++ [y])).get z = (carriedLoad lines).get z + if y.size = z then y.held else 0 := by
  simp only [carriedLoad_get, List.filter_append, List.map_append, List.sum_append]
  by_cases h : y.size = z <;> simp [h]

/-- The order of the lines does not matter to the carried load. -/
theorem carriedLoad_perm {xs ys : List ManifestLine} (h : xs.Perm ys) (z : SizeClass) :
    (carriedLoad xs).get z = (carriedLoad ys).get z := by
  rw [carriedLoad_get, carriedLoad_get]
  exact ((h.filter _).map _).sum_eq

/-- Manifest order only rearranges the lines. -/
theorem manifestOrder_perm (lines : List ManifestLine) : (manifestOrder lines).Perm lines :=
  List.perm_insertionSort _ _

/-! ## One consideration -/

/-- Everything that considering a slot for a rack can do: nothing, or a line for its eligible rack, with the covered-through
(R105, R107, R37). -/
theorem considerRack_cases (r : RouteId) (w : BuildWork) (i : SlotId) :
    considerRack r w i = w ∨ ∃ stop k, w.st.mapSlot i = some (r, stop) ∧ w.st.hasRackOut i = false ∧
      w.st.eligibleRack i = some k ∧ w.room.get (w.st.slot i).cfg.size ≠ 0 ∧ w.lines.length < maxLines ∧
      considerRack r w i = { w.add (w.st.newLine i stop (.rack k.first k.last k.positions) 1) with
        st := w.st.coverThrough i k.last } := by
  unfold considerRack
  split
  · exact .inl rfl
  next route stop hm =>
    split
    · exact .inl rfl
    next h1 =>
      split
      · exact .inl rfl
      next k hk =>
        split
        · exact .inl rfl
        next h2 =>
          simp only [not_or, not_not, Bool.not_eq_true] at h1 h2
          exact .inr ⟨stop, k, h1.1 ▸ hm, h1.2, hk, h2.1, by omega, rfl⟩

/-- Everything that considering a candidate can do: nothing, or a line for as many of its containers as fit (R110). -/
theorem considerBin_cases (w : BuildWork) (d : DemandLine) :
    considerBin w d = w ∨ ∃ route stop k, w.st.mapSlot d.slot = some (route, stop) ∧
      k = min d.containers (w.room.get (w.st.slot d.slot).cfg.size) ∧ k ≠ 0 ∧ w.lines.length < maxLines ∧
      considerBin w d = { w.add (w.st.newLine d.slot stop (.bin d.cls) k) with st := w.st.takeOpen d.slot k } := by
  unfold considerBin
  dsimp only
  split
  · exact .inl rfl
  next h =>
    split
    · exact .inl rfl
    next route stop hm =>
      simp only [not_or] at h
      exact .inr ⟨route, stop, _, hm, rfl, h.1, by omega, rfl⟩

/-! ## The lines fit -/

/-- The lines of a build in progress fit: at most 32, and in each class their held containers and the room left make the capacity;
each line is whole (R98, R101, R107, R110). -/
structure BuildWork.Fits (caps : PerSize) (w : BuildWork) : Prop where
  count : w.lines.length ≤ maxLines
  room : ∀ z, w.room.get z + (carriedLoad w.lines).get z = caps.get z
  whole : ∀ y ∈ w.lines, y.held = y.planned ∧ 1 ≤ y.planned ∧ y.delivered = 0 ∧ y.state = .planned

/-- A build starts with no line and all the room. -/
theorem BuildWork.Fits.start (s : State) (caps : PerSize) : BuildWork.Fits caps ⟨s, caps, []⟩ :=
  ⟨Nat.zero_le _, fun z => by rw [carriedLoad_get]; rfl, fun _ h => absurd h List.not_mem_nil⟩

/-- A line that takes no more than its room keeps the build fitting. -/
theorem BuildWork.Fits.add {caps : PerSize} {w : BuildWork} (h : w.Fits caps) (hl : w.lines.length < maxLines) {y : ManifestLine}
    (hr : y.planned ≤ w.room.get y.size) (hw : y.held = y.planned ∧ 1 ≤ y.planned ∧ y.delivered = 0 ∧ y.state = .planned)
    (t : State) : BuildWork.Fits caps { w.add y with st := t } where
  count := by simp [BuildWork.add]; omega
  room z := by
    show (w.room.modify y.size (· - y.planned)).get z + (carriedLoad (w.lines ++ [y])).get z = caps.get z
    rw [carriedLoad_append]
    have := h.room z
    by_cases e : y.size = z
    · subst e; rw [PerSize.get_modify_self, if_pos rfl]; omega
    · rw [PerSize.get_modify_ne _ _ (Ne.symm e), if_neg e]; omega
  whole x hx := by
    rcases List.mem_append.mp hx with hx | hx
    · exact h.whole x hx
    · rw [List.mem_singleton.mp hx]; exact hw

theorem considerRack_fits {caps : PerSize} {w : BuildWork} (r : RouteId) (h : w.Fits caps) (i : SlotId) :
    (considerRack r w i).Fits caps := by
  obtain e | ⟨stop, k, -, -, -, hr, hl, e⟩ := considerRack_cases r w i <;> rw [e]
  · exact h
  · exact h.add hl (Nat.one_le_iff_ne_zero.mpr hr) ⟨rfl, Nat.le_refl 1, rfl, rfl⟩ _

theorem considerBin_fits {caps : PerSize} {w : BuildWork} (h : w.Fits caps) (d : DemandLine) :
    (considerBin w d).Fits caps := by
  obtain e | ⟨route, stop, k, -, hk, h0, hl, e⟩ := considerBin_cases w d <;> rw [e]
  · exact h
  · exact h.add hl (hk ▸ Nat.min_le_right ..) ⟨rfl, Nat.one_le_iff_ne_zero.mpr h0, rfl, rfl⟩ _

/-- What a build selects fits the route's capacities. -/
theorem State.selectLoad_fits (s : State) (r : RouteId) : (s.selectLoad r).Fits (s.route r).cfg.caps := by
  have racks := List.foldlRecOn (s.slotsWhere Slot.rackable) (considerRack r) (BuildWork.Fits.start s (s.route r).cfg.caps)
    fun w h i _ => considerRack_fits r h i
  have bins := List.foldlRecOn
    (((s.slotsWhere Slot.rackable).foldl (considerRack r) ⟨s, (s.route r).cfg.caps, []⟩).st.candidates r) considerBin racks
    fun w h d _ => considerBin_fits h d
  exact ⟨bins.count, bins.room, bins.whole⟩

/-! ## What a selection leaves of the part -/

/-- Placing a rack moves its slot's covered-through alone (R37). -/
theorem considerRack_rest (r : RouteId) (w : BuildWork) (i : SlotId) :
    (considerRack r w i).st = { w.st with slots := (considerRack r w i).st.slots } ∧
      OnlySlot w.st (considerRack r w i).st i := by
  obtain e | ⟨stop, k, -, -, -, -, -, e⟩ := considerRack_cases r w i <;> rw [e]
  · exact ⟨rfl, fun _ _ => rfl⟩
  · exact ⟨rfl, fun j hj => by simp [State.coverThrough, hj]⟩

/-- Assigning bins moves the demand queue alone (R50). -/
theorem considerBin_rest (w : BuildWork) (d : DemandLine) :
    (considerBin w d).st = { w.st with demand := (considerBin w d).st.demand } := by
  obtain e | ⟨route, stop, k, -, -, -, -, e⟩ := considerBin_cases w d <;> rw [e]
  show w.st.takeOpen d.slot k = { w.st with demand := (w.st.takeOpen d.slot k).demand }
  unfold State.takeOpen
  split <;> rfl

/-- A selection moves slots and the demand queue alone. -/
theorem State.selectLoad_rest (s : State) (r : RouteId) :
    (s.selectLoad r).st = { s with slots := (s.selectLoad r).st.slots, demand := (s.selectLoad r).st.demand } := by
  have racks : ∀ (is : List SlotId) (w : BuildWork),
      (is.foldl (considerRack r) w).st = { w.st with slots := (is.foldl (considerRack r) w).st.slots } := by
    intro is
    induction is with
    | nil => exact fun _ => rfl
    | cons i is ih => intro w; rw [List.foldl_cons, ih, (considerRack_rest r w i).1]
  have bins : ∀ (ds : List DemandLine) (w : BuildWork),
      (ds.foldl considerBin w).st = { w.st with demand := (ds.foldl considerBin w).st.demand } := by
    intro ds
    induction ds with
    | nil => exact fun _ => rfl
    | cons d ds ih => intro w; rw [List.foldl_cons, ih, considerBin_rest]
  unfold State.selectLoad State.countPasses State.modDemand
  dsimp only
  rw [bins, racks]

/-- A build moves slots, the demand queue, its route and the notices alone. -/
theorem State.build_rest (s : State) (r : RouteId) :
    s.build r = { s with
      slots := (s.build r).slots, demand := (s.build r).demand, routes := (s.build r).routes, queues := (s.build r).queues } ∧
      OnlyRoute s (s.build r) r := by
  unfold State.build
  dsimp only
  split
  · exact ⟨rfl, fun k hk => by simp [hk]⟩
  · split
    next h _ =>
      unfold State.buildInto
      dsimp only
      rw [s.selectLoad_rest r]
      exact ⟨rfl, fun k hk => by simp [hk]; rfl⟩
    · exact ⟨rfl, fun k hk => by simp [hk]⟩

end Sys2Proof.Machine
end

