-- ==== Sys2Proof/Laws/Clock.lean ====
section
/-!
SUPPORT. The route timer: a count, a wrap and a take-up keep a route's counter below its period; what a departure point and a build
point leave; and settling where nothing is due.
-/

namespace Sys2Proof.Machine

open Sys2Proof

/-! ## The counter -/

/-- Everything a decisecond of a route's clock can do to it (R83). -/
theorem Route.count_cases (x : Route) :
    (x.cfg.timing.enabled = false ∧ x.count = x) ∨
    (x.cfg.timing.enabled = true ∧ x.c + 1 < x.cfg.timing.period ∧
      x.count = { x with c := x.c + 1, due := x.cfg.timing.eventAt (x.c + 1) }) ∨
    (x.cfg.timing.enabled = true ∧ x.cfg.timing.period ≤ x.c + 1 ∧ x.count = { x with due := some .wrap }) := by
  unfold Route.count
  dsimp only
  by_cases he : x.cfg.timing.enabled = true
  · by_cases hc : x.c + 1 < x.cfg.timing.period
    · exact .inr (.inl ⟨he, hc, by rw [if_pos he, if_pos hc]⟩)
    · exact .inr (.inr ⟨he, by omega, by rw [if_pos he, if_neg hc]⟩)
  · exact .inl ⟨by simpa using he, by rw [if_neg he]⟩

/-- A count keeps the route's counter below its period (R83). -/
theorem Route.count_law {x : Route} (h : x.TimingLaw) : x.count.TimingLaw := by
  obtain ⟨-, e⟩ | ⟨-, hc, e⟩ | ⟨-, -, e⟩ := x.count_cases <;> rw [e]
  · exact h
  · exact ⟨hc, h.pending⟩
  · exact ⟨h.counter, h.pending⟩

/-- A timing taken up has the counter below its period and nothing pending (R94). -/
theorem Route.takeUp_law (x : Route) {t : RouteTiming} (h : t.InRange) : (x.takeUp t).TimingLaw where
  counter := by
    show (if x.c < t.period then x.c else 0) < t.period
    have := h.period_low
    split <;> omega
  pending u hu := by simp [Route.takeUp] at hu

/-- A wrap of a route with pending timing runs on the new timing, from 0 (R84). -/
theorem Route.wrapped_some {x : Route} {t : RouteTiming} (h : x.next = some t) (ht : 0 < t.period) :
    x.wrapped = { x with
      cfg := { x.cfg with timing := t }, next := none, c := 0, lap := x.lap + 1
      due := if t.enabled then t.eventAt 0 else none } := by
  simp [Route.wrapped, h, Route.takeUp, ht]

/-- A wrap of a route without pending timing (R84). -/
theorem Route.wrapped_none {x : Route} (h : x.next = none) :
    x.wrapped = { x with
      c := 0, lap := x.lap + 1, due := if x.cfg.timing.enabled then x.cfg.timing.eventAt 0 else none } := by
  simp [Route.wrapped, h]

/-- A wrap keeps the route's counter below its period (R84). -/
theorem Route.wrapped_law {x : Route} (h : x.TimingLaw) : x.wrapped.TimingLaw := by
  cases hn : x.next with
  | none =>
    rw [wrapped_none hn]
    exact ⟨by have := h.counter; show 0 < x.cfg.timing.period; omega, h.pending⟩
  | some t =>
    have ht := h.pending t hn
    have h0 : 0 < t.period := by have := ht.period_low; omega
    rw [wrapped_some hn h0]
    exact ⟨h0, fun u hu => by simp at hu⟩

/-- A point falls due only where C is below the period (R85, R86, R89). -/
theorem RouteTiming.eventAt_below {t : RouteTiming} {c : Nat} {e : RouteEvent} (h : t.eventAt c = some e) :
    c < t.period ∧ e ≠ .wrap := by
  unfold RouteTiming.eventAt at h
  split at h
  · split at h
    · cases h; exact ⟨by omega, by decide⟩
    · cases h
  · split at h
    · cases h; exact ⟨by omega, by decide⟩
    · split at h
      · cases h; exact ⟨by omega, by decide⟩
      · cases h

/-! ## The points -/

/-- The points move slots, the demand queue, routes and the notices alone. -/
structure MovesRoute (r : RouteId) (s t : State) : Prop where
  rest : t = { s with slots := t.slots, demand := t.demand, routes := t.routes, queues := t.queues }
  others : OnlyRoute s t r

namespace MovesRoute

variable {r : RouteId} {s t u : State}

theorem refl (r : RouteId) (s : State) : MovesRoute r s s := ⟨rfl, fun _ _ => rfl⟩

theorem trans (h : MovesRoute r s t) (k : MovesRoute r t u) : MovesRoute r s u :=
  ⟨by rw [k.rest, h.rest], fun j hj => (k.others j hj).trans (h.others j hj)⟩

theorem modRoute (r : RouteId) (s : State) (f : Route → Route) : MovesRoute r s (s.modRoute r f) :=
  ⟨rfl, fun k hk => by simp [hk]⟩

theorem modBuffer (r : RouteId) (s : State) (h : Half) (f : Buffer → Buffer) : MovesRoute r s (s.modBuffer r h f) :=
  modRoute r s _

theorem raise (r : RouteId) (s : State) (e : Event) : MovesRoute r s (s.raise e) := ⟨rfl, fun _ _ => rfl⟩

theorem ofDemand (r : RouteId) (h : MovesDemand s t) : MovesRoute r s t :=
  ⟨by rw [h.rest], fun k _ => by unfold State.route; rw [h.routes]⟩

/-- A fold of operations that each move one route moves that route. -/
theorem foldl {α : Type} {f : State → α → State} (h : ∀ s a, MovesRoute r s (f s a)) (as : List α) (s : State) :
    MovesRoute r s (as.foldl f s) := by
  induction as generalizing s with
  | nil => exact refl r s
  | cons a as ih => exact (h s a).trans (ih _)

end MovesRoute

theorem goLate_moves (s : State) (r : RouteId) (b : Buffer) : MovesRoute r s (s.goLate r b) := by
  unfold State.goLate
  split
  · exact .refl r s
  · exact (MovesRoute.modRoute r s _).trans (.raise r _ _)

theorem goOverdue_moves (s : State) (r : RouteId) (h : Half) : MovesRoute r s (s.goOverdue r h) :=
  ((MovesRoute.modBuffer r s h _).trans (.modRoute r _ _)).trans (.raise r _ _)

theorem judgeDeparture_moves (r : RouteId) (s : State) (h : Half) : MovesRoute r s (State.judgeDeparture r s h) := by
  have seen : MovesRoute r s (s.modBuffer r h fun b => { b with seen := min (b.seen + 1) 2 }) := .modBuffer r s h _
  unfold State.judgeDeparture
  dsimp only
  split
  · split
    · exact seen.trans (goOverdue_moves ..)
    · exact seen
  · split
    · exact seen.trans (goLate_moves ..)
    · exact seen

theorem departurePoint_moves (s : State) (r : RouteId) : MovesRoute r s (s.departurePoint r) :=
  (MovesRoute.foldl (judgeDeparture_moves r) _ s).trans (.modRoute r _ _)

theorem buildPoint_moves (s : State) (r : RouteId) : MovesRoute r s (s.buildPoint r) :=
  ((MovesRoute.ofDemand r (retestUncovered_moves s)).trans ⟨(State.build_rest _ r).1, (State.build_rest _ r).2⟩).trans
    (.modRoute r _ _)

theorem wrapPoint_moves (s : State) (r : RouteId) : MovesRoute r s (s.wrapPoint r) := .modRoute r s _

theorem skippedPoint_moves (s : State) (r : RouteId) : MovesRoute r s (s.skippedPoint r) := .modRoute r s _

/-- Taking the event that a route has due moves that route, slots, the demand queue and the notices alone. -/
theorem takeDue_moves (s : State) (r : RouteId) : MovesRoute r s (s.takeDue r) := by
  unfold State.takeDue
  split
  · exact .refl r s
  · exact wrapPoint_moves s r
  · exact buildPoint_moves s r
  · exact departurePoint_moves s r
  · exact skippedPoint_moves s r

theorem settleRoute_moves (s : State) (r : RouteId) : MovesRoute r s (s.settleRoute r) :=
  (takeDue_moves s r).trans (takeDue_moves _ r)

/-! ## Settling -/

/-- Settling moves slots, the demand queue, the routes and the notices alone. -/
theorem State.settleRoutes_rest (s : State) :
    s.settleRoutes = { s with
      slots := s.settleRoutes.slots, demand := s.settleRoutes.demand, routes := s.settleRoutes.routes
      queues := s.settleRoutes.queues } := by
  unfold State.settleRoutes
  generalize routeIds = rs
  induction rs generalizing s with
  | nil => rfl
  | cons r rs ih => rw [List.foldl_cons, ih, (settleRoute_moves s r).rest]

/-- Where nothing is due, settling does nothing. -/
theorem State.settleRoutes_quiet {s : State} (h : ∀ r, (s.route r).due = none) : s.settleRoutes = s := by
  have one : ∀ r, s.settleRoute r = s := fun r => by simp [settleRoute, takeDue, h r]
  unfold State.settleRoutes
  generalize routeIds = rs
  induction rs with
  | nil => rfl
  | cons r rs ih => rw [List.foldl_cons, one, ih]

/-- The count reaches every route, each by its own clock (R76, R83). -/
theorem State.countRoutes_route (s : State) (r : RouteId) :
    s.countRoutes.route r = if s.ticks (s.route r).cfg.timing.source then (s.route r).count else s.route r :=
  getElem_mapTable _ s.routes r.val r.isLt

end Sys2Proof.Machine
end

