-- ==== Sys2Proof/Laws/Staging.lean ====
section
/-!
SUPPORT. The staging unit: which slots an apply changes, that it adjusts each of them once and by itself, what it leaves of the
routes, and what an apply as a whole moves.
-/

namespace Sys2Proof.Machine

open Sys2Proof

/-! ## Slots -/

/-- An apply changes exactly the slots whose clamped staged record differs from the live one (R159). -/
@[simp] theorem State.mem_changedSlots (s : State) (i : SlotId) : i ∈ s.changedSlots ↔ s.stagedConfig i ≠ (s.slot i).cfg := by
  simp [State.changedSlots]

theorem State.changedSlots_nodup (s : State) : s.changedSlots.Nodup := slotIds_nodup.filter _

/-- An adjustment moves slots, the demand queue and the image's slots alone, and of the slots its own. -/
structure Adjusts (i : SlotId) (s t : State) : Prop where
  rest : t = { s with slots := t.slots, demand := t.demand, image := t.image }
  others : OnlySlot s t i
  image : t.image = { s.image with slots := t.image.slots }

namespace Adjusts

variable {i : SlotId} {s t u : State}

theorem refl (i : SlotId) (s : State) : Adjusts i s s := ⟨rfl, fun _ _ => rfl, rfl⟩

theorem trans (h : Adjusts i s t) (k : Adjusts i t u) : Adjusts i s u :=
  ⟨by rw [k.rest, h.rest], fun j hj => (k.others j hj).trans (h.others j hj), by rw [k.image, h.image]⟩

theorem modSlot (i : SlotId) (s : State) (f : Slot → Slot) : Adjusts i s (s.modSlot i f) :=
  ⟨rfl, fun j hj => by simp [hj], rfl⟩

theorem modDemand (i : SlotId) (s : State) (f : DemandQueue → DemandQueue) : Adjusts i s (s.modDemand f) :=
  ⟨rfl, fun _ _ => rfl, rfl⟩

theorem takeOpen (i : SlotId) (s : State) (n : Nat) : Adjusts i s (s.takeOpen i n) := by
  unfold State.takeOpen
  split <;> exact modDemand ..

theorem cancelOpen (i : SlotId) (s : State) (n : Nat) : Adjusts i s (s.cancelOpen i n) := by
  unfold State.cancelOpen
  dsimp only
  split
  · exact refl i s
  · exact (takeOpen i s _).trans (modSlot i _ _)

end Adjusts

/-- The adjustments of a slot that stays KANBAN (R161). -/
theorem adjustKanban_moves (s : State) (i : SlotId) (old new : SlotConfig) : Adjusts i s (s.adjustKanban i old new) := by
  unfold State.adjustKanban
  dsimp only
  have h1 : Adjusts i s (s.modSlot i fun x => { x with oh := min x.oh new.fullMp }) := .modSlot i s _
  have h2 : ∀ t, Adjusts i s t → ∀ (p : Prop) [Decidable p] (n : Nat), Adjusts i s (if p then t.cancelOpen i n else t) := by
    intro t ht p _ n
    split
    · exact ht.trans (.cancelOpen i t n)
    · exact ht
  split
  · exact h2 _ (h2 _ h1 _ _) _ _
  · exact (h2 _ (h2 _ h1 _ _) _ _).trans (.modSlot i _ _)

/-- A slot made SEQUENCED (R162). -/
theorem makeSequenced_moves (s : State) (i : SlotId) (new : SlotConfig) : Adjusts i s (s.makeSequenced i new) := by
  unfold State.makeSequenced
  exact (Adjusts.cancelOpen i s (s.openContainers i)).trans (.modSlot i _ _)

/-- A slot made KANBAN (R162). -/
theorem makeKanban_moves (s : State) (i : SlotId) (new : SlotConfig) : Adjusts i s (s.makeKanban i new) := .modSlot i s _

/-- Step 5 of an apply touches its slot alone, of the slots, and beyond them the demand queue and the image's copy (R160). -/
theorem adjustSlot_moves (s : State) (i : SlotId) : Adjusts i s (s.adjustSlot i) := by
  have h0 : Adjusts i s ((s.modSlot i fun x => { x with cfg := s.stagedConfig i }).modImage
      fun m => { m with slots := m.slots.set i (s.stagedConfig i) }) :=
    (Adjusts.modSlot i s _).trans ⟨rfl, fun _ _ => rfl, rfl⟩
  unfold State.adjustSlot
  dsimp only
  split
  · exact h0.trans (adjustKanban_moves ..)
  · exact h0.trans (makeSequenced_moves ..)
  · exact h0.trans (makeKanban_moves ..)
  · split
    · exact h0
    · exact h0.trans (.modSlot i _ _)

/-- A cancel of an OPEN line's containers leaves its slot's record but for its orders (R56). -/
theorem cancelOpen_slot (s : State) (i : SlotId) (n : Nat) : SameButOrders (s.slot i) ((s.cancelOpen i n).slot i) :=
  (cancelOpen_moves i s n).own

/-- A slot's record after a conditional cancel, orders apart. -/
theorem cancelOpen_if_slot (s : State) (i : SlotId) {z : Slot} (h : SameButOrders z (s.slot i)) (p : Prop) [Decidable p] (n : Nat) :
    SameButOrders z ((if p then s.cancelOpen i n else s).slot i) := by
  split
  · exact h.trans (cancelOpen_slot s i n)
  · exact h

/-- What the adjustments make of a slot that stays KANBAN (R153, R161). -/
theorem adjustKanban_slot (s : State) (i : SlotId) (old new : SlotConfig) :
    SameButOrders { s.slot i with
      oh := min (s.slot i).oh new.fullMp
      disKind := if new.sameSensor old then (s.slot i).disKind else none
      disCount := if new.sameSensor old then (s.slot i).disCount else 0 } ((s.adjustKanban i old new).slot i) := by
  unfold State.adjustKanban
  lift_lets
  intro _ s1 s2 s3
  have h1 : SameButOrders { s.slot i with oh := min (s.slot i).oh new.fullMp } (s1.slot i) := by simp [s1, SameButOrders]
  have h2 : SameButOrders { s.slot i with oh := min (s.slot i).oh new.fullMp } (s2.slot i) := cancelOpen_if_slot s1 i h1 _ _
  have h3 : SameButOrders { s.slot i with oh := min (s.slot i).oh new.fullMp } (s3.slot i) := cancelOpen_if_slot s2 i h2 _ _
  cases hs : new.sameSensor old
  · have e : (s3.modSlot i fun x => { x with disKind := none, disCount := 0 }).slot i =
        { s3.slot i with disKind := none, disCount := 0 } := by simp
    simp only [Bool.false_eq_true, if_false, e]
    unfold SameButOrders at h3 ⊢
    rw [h3]
  · exact h3

/-- What step 5 makes of its slot's record, by the kinds before and after (R153, R161, R162, R29). -/
theorem adjustSlot_slot (s : State) (i : SlotId) {x : Slot} {new : SlotConfig} (hx : s.slot i = x) (hn : s.stagedConfig i = new) :
    match x.cfg.kind, new.kind with
    | .kanban, .kanban => SameButOrders { x with
        cfg := new, oh := min x.oh new.fullMp
        disKind := if new.sameSensor x.cfg then x.disKind else none
        disCount := if new.sameSensor x.cfg then x.disCount else 0 } ((s.adjustSlot i).slot i)
    | .kanban, .sequenced => (s.adjustSlot i).slot i = { cfg := new, marks := (s.seq new.line).rebased }
    | .sequenced, .kanban => (s.adjustSlot i).slot i = { cfg := new, oh := new.startMp, ordered := s.binsOut i }
    | .sequenced, .sequenced => (s.adjustSlot i).slot i =
        { x with cfg := new, marks := if new.line = x.cfg.line then x.marks else (s.seq new.line).rebased } := by
  unfold State.adjustSlot
  dsimp only
  rw [hx, hn]
  generalize e : (s.modSlot i fun x => { x with cfg := new }).modImage (fun m => { m with slots := m.slots.set i new }) = u
  have hu : u.slot i = { x with cfg := new } := by rw [← e, ← hx]; simp
  have hs : u.seqs = s.seqs := by rw [← e]; rfl
  have hr : u.routes = s.routes := by rw [← e]; rfl
  cases hk : x.cfg.kind <;> cases hk' : new.kind <;> dsimp only
  · have := adjustKanban_slot u i x.cfg new
    rw [hu] at this
    exact this
  · have hc : (u.cancelOpen i (u.openContainers i)).seqs = s.seqs := by rw [(cancelOpen_moves i u _).seqs, hs]
    simp [State.makeSequenced, State.seq, hc]
  · have : u.binsOut i = s.binsOut i := by simp only [State.binsOut, State.buffer, State.route, hr]
    simp [State.makeKanban, this]
  · by_cases hl : new.line = x.cfg.line
    · simp [hl, hu]
    · simp [hl, hu, State.seq, hs]

/-- Adjusting a list of slots moves slots, the demand queue and the image's slots alone. -/
theorem foldl_adjustSlot_rest (is : List SlotId) (s : State) :
    is.foldl State.adjustSlot s = { s with
      slots := (is.foldl State.adjustSlot s).slots, demand := (is.foldl State.adjustSlot s).demand
      image := (is.foldl State.adjustSlot s).image } := by
  induction is generalizing s with
  | nil => rfl
  | cons i is ih => rw [List.foldl_cons, ih, (adjustSlot_moves s i).rest]

/-- A slot that is not in the list keeps its record. -/
theorem foldl_adjustSlot_other (j : SlotId) (is : List SlotId) (s : State) (h : j ∉ is) :
    (is.foldl State.adjustSlot s).slot j = s.slot j := by
  induction is generalizing s with
  | nil => rfl
  | cons i is ih =>
    rw [List.foldl_cons, ih _ (List.not_mem_of_not_mem_cons h)]
    exact (adjustSlot_moves s i).others j (List.ne_of_not_mem_cons h)

/-! ## Routes -/

/-- Everything an apply can do to a route: its timing is discarded as equal, made pending, or taken up; the rest of its
configuration is the staged one (R94). -/
theorem Route.applied_cases (x : Route) (c : RouteConfig) :
    (c.timing = x.cfg.timing ∧ x.applied c = { x with cfg := c, next := none }) ∨
    (c.timing ≠ x.cfg.timing ∧ x.counting = true ∧
      x.applied c = { x with cfg := { c with timing := x.cfg.timing }, next := some c.timing }) ∨
    (c.timing ≠ x.cfg.timing ∧ x.counting = false ∧
      x.applied c = { x with cfg := c, next := none, c := if x.c < c.timing.period then x.c else 0 }) := by
  unfold Route.applied
  dsimp only
  by_cases h : c.timing = x.cfg.timing
  · exact .inl ⟨h, by rw [if_pos h, ← h]⟩
  · cases hc : x.counting with
    | true => exact .inr (.inl ⟨h, rfl, by rw [if_neg h]; rfl⟩)
    | false => exact .inr (.inr ⟨h, rfl, by rw [if_neg h]; rfl⟩)

/-- An apply keeps every route's counter below its period (R94). -/
theorem Route.applied_law {x : Route} {c : RouteConfig} (h : x.TimingLaw) (hc : c.InRange) : (x.applied c).TimingLaw := by
  obtain ⟨e, e'⟩ | ⟨-, -, e'⟩ | ⟨-, -, e'⟩ := x.applied_cases c <;> rw [e']
  · exact ⟨by rw [e]; exact h.counter, fun t ht => by cases ht⟩
  · exact ⟨h.counter, fun t ht => by cases ht; exact hc.timing⟩
  · refine ⟨?_, fun t ht => by cases ht⟩
    have := hc.timing.period_low
    dsimp only
    split <;> omega

/-- Step 4 of an apply takes every route to its staged configuration (R160). -/
theorem State.applyRoutes_route (s : State) (r : RouteId) : s.applyRoutes.route r = (s.route r).applied s.image.routes[r] := by
  obtain ⟨-, h, -⟩ := foldl_eachRoute
    (f := fun t r => t.modRoute r fun x => x.applied t.image.routes[r]) (Q := fun t => t.image = s.image)
    (R := fun r x y => y = x.applied s.image.routes[r])
    (fun t r _ k hk => by simp [hk]) (fun t r ht => ht) (fun t r ht => by simp [ht]) routeIds s routeIds_nodup rfl
  exact h r (mem_routeIds r)

/-- Step 4 moves the routes alone. -/
theorem State.applyRoutes_rest (s : State) : s.applyRoutes = { s with routes := s.applyRoutes.routes } := by
  unfold State.applyRoutes
  generalize routeIds = rs
  have key : ∀ (rs : List RouteId) (t : State),
      rs.foldl (fun t r => t.modRoute r fun x => x.applied t.image.routes[r]) t =
        { t with routes := (rs.foldl (fun t r => t.modRoute r fun x => x.applied t.image.routes[r]) t).routes } := by
    intro rs
    induction rs with
    | nil => exact fun _ => rfl
    | cons r rs ih => intro t; rw [List.foldl_cons, ih]; rfl
  exact key rs s

/-! ## The whole apply -/

/-- An apply moves the live tables, the demand queue, the image's slots and the notices alone (R160). -/
theorem State.applyImage_rest (s : State) (line : Option Line) (mode : ApplyMode) (seq : SeqNo) :
    let t := s.applyImage line mode seq
    t = { s with
      usage := s.image.usage, coverage := s.image.windows, slots := t.slots, demand := t.demand, routes := t.routes
      image := t.image, queues := t.queues } := by
  have evals : ∀ (is : List SlotId) (t : State), MovesDemand t (is.foldl State.evaluate t) := fun is t =>
    MovesDemand.foldl (fun t i => (evaluate_moves i t).demand) is t
  unfold State.applyImage
  dsimp only
  split
  · rw [foldl_adjustSlot_rest, applyRoutes_rest]; rfl
  · rw [(evals _ _).rest, foldl_adjustSlot_rest, applyRoutes_rest]; rfl

end Sys2Proof.Machine
end

