-- ==== Sys2Proof/Laws/Advance.lean ====
section
/-!
SUPPORT. The words in which the statements tell an advance: what settling a list leaves alone, what a draw leaves of a slot's
record, and when an advance takes the plan.
-/

namespace Sys2Proof.Machine

open Sys2Proof

/-! ## Settling -/

/-- Settling a list moves the sequences and, by SEQ_BREAK, the notice queues, and nothing else (R30, R31). -/
theorem State.afterSettling_frame (s : State) (l : Line) (seq : SeqNo) :
    s.afterSettling l seq =
      { s with seqs := (s.afterSettling l seq).seqs, queues := (s.afterSettling l seq).queues } := by
  unfold State.afterSettling
  dsimp only
  split
  · rfl
  · split <;> rfl

@[simp] theorem State.afterSettling_slots (s : State) (l : Line) (seq : SeqNo) : (s.afterSettling l seq).slots = s.slots := by
  rw [s.afterSettling_frame]
@[simp] theorem State.afterSettling_demand (s : State) (l : Line) (seq : SeqNo) :
    (s.afterSettling l seq).demand = s.demand := by
  rw [s.afterSettling_frame]
@[simp] theorem State.afterSettling_usage (s : State) (l : Line) (seq : SeqNo) : (s.afterSettling l seq).usage = s.usage := by
  rw [s.afterSettling_frame]
@[simp] theorem State.afterSettling_image (s : State) (l : Line) (seq : SeqNo) : (s.afterSettling l seq).image = s.image := by
  rw [s.afterSettling_frame]
@[simp] theorem State.afterSettling_routes (s : State) (l : Line) (seq : SeqNo) :
    (s.afterSettling l seq).routes = s.routes := by
  rw [s.afterSettling_frame]
@[simp] theorem State.afterSettling_applyState (s : State) (l : Line) (seq : SeqNo) :
    (s.afterSettling l seq).applyState = s.applyState := by
  rw [s.afterSettling_frame]

/-! ## A draw -/

@[simp] theorem Slot.charged_cfg (x : Slot) (d : Nat) : (x.charged d).cfg = x.cfg := rfl
@[simp] theorem Slot.charged_oh (x : Slot) (d : Nat) : (x.charged d).oh = x.oh - d := rfl
@[simp] theorem Slot.charged_ordered (x : Slot) (d : Nat) : (x.charged d).ordered = x.ordered := rfl
@[simp] theorem Slot.charged_withheld (x : Slot) (d : Nat) : (x.charged d).withheld = x.withheld := rfl
@[simp] theorem Slot.charged_marks (x : Slot) (d : Nat) : (x.charged d).marks = x.marks := rfl

/-! ## The plan mark -/

/-- An advance takes the plan exactly where the staging unit is ARMED for its line and the advance, as the sequence unit settles
it, is marked (R32). -/
theorem State.takesPlan_iff (s : State) (l : Line) (seq : SeqNo) (mark : Bool) :
    s.takesPlan l seq mark ↔
      s.applyState = .armed l ∧ (mark || (settle (s.seq l).units seq).marked) = true := by
  unfold State.takesPlan settle
  cases (s.seq l).units.findIdx? (·.seq == seq) with
  | none => simp
  | some k =>
    simp only [Option.some.injEq, Bool.or_eq_true, List.any_eq_true]
    refine and_congr_right fun _ => or_congr_right ⟨?_, ?_⟩
    · rintro ⟨_, j, u, rfl, hj, hu, hm⟩
      exact ⟨u, List.mem_iff_getElem?.mpr ⟨j, by rw [List.getElem?_take, if_pos (by omega)]; exact hu⟩, hm⟩
    · rintro ⟨u, hu, hm⟩
      obtain ⟨j, hj⟩ := List.mem_iff_getElem?.mp hu
      rw [List.getElem?_take] at hj
      split at hj
      · exact ⟨k, j, u, rfl, by omega, hj, hm⟩
      · cases hj

end Sys2Proof.Machine
end

