-- ==== Sys2Proof/Laws/Requests.lean ====
section
/-!
SUPPORT. What every request goes through, said once: the pin RESET_N, the port's rights, the range tests, and the answer; and how
a complete frame hands its request over.
-/

namespace Sys2Proof.Machine

open Sys2Proof

variable {s t : State} {p : Port} {q : Request} {st : Status} {b : Body}

/-! ## Answers -/

/-- An answer to a state whose ports are those of s answers s. -/
theorem reply_answers (h : t.ports = s.ports) : Answered s (reply p st b t) p st b := by
  have hp : ∀ k, t.port k = s.port k := fun k => by unfold State.port; rw [h]
  exact ⟨by rw [reply_port_self, hp]; rfl, fun k hk => by rw [reply_port_ne _ _ _ hk, hp]⟩

/-- An answer alone changes nothing beyond the asking port's unit. -/
theorem reply_onlyAnswers (s : State) (p : Port) (st : Status) (b : Body) : OnlyAnswered s (reply p st b s) p st b :=
  ⟨reply_answers rfl, rfl⟩

/-! ## The wrappers -/

/-- With RESET_N high, a permitted request is its owner's to take. -/
theorem takeRequest_taken {owner : State → State} (h : s.resetN = .high) (hp : permitted p q = true) :
    takeRequest p q s owner = .next (owner s) := by
  unfold takeRequest; rw [h, hp]; rfl

/-- With RESET_N high, a request the port may not send is answered NOT_PERMITTED. -/
theorem takeRequest_refused {owner : State → State} (h : s.resetN = .high) (hp : permitted p q = false) :
    takeRequest p q s owner = .next (reply p .notPermitted .empty s) := by
  unfold takeRequest; rw [h, hp]; rfl

/-- With RESET_N low, nothing is taken. -/
theorem takeRequest_inReset {owner : State → State} (h : s.resetN = .low) : takeRequest p q s owner = .next s := by
  unfold takeRequest; rw [h]; rfl

/-- With RESET_N high, an event happens. -/
theorem takeEvent_taken {event : State → State} (h : s.resetN = .high) : takeEvent s event = .next (event s) := by
  unfold takeEvent; rw [h]; rfl

/-- With RESET_N low, no event happens. -/
theorem takeEvent_inReset {event : State → State} (h : s.resetN = .low) : takeEvent s event = .next s := by
  unfold takeEvent; rw [h]; rfl

/-- A request keeps the commands that wait, if its owner does. -/
theorem takeRequest_keepsPending {owner : State → State} (h : (owner s).pending = s.pending) :
    ∃ t, takeRequest p q s owner = .next t ∧ t.pending = s.pending := by
  refine ⟨_, rfl, ?_⟩
  split
  · rfl
  · split
    · exact h
    · rfl

/-- An event keeps the commands that wait, if its effect does. -/
theorem takeEvent_keepsPending {event : State → State} (h : (event s).pending = s.pending) :
    ∃ t, takeEvent s event = .next t ∧ t.pending = s.pending := by
  refine ⟨_, rfl, ?_⟩
  split
  · rfl
  · exact h

/-! ## Codes -/

/-- Each request code names its own request (R166). -/
theorem requestOf_requestCode (q : Request) : requestOf? (requestCode q) = some q := by cases q <;> decide

/-- A code the part does not know names no request, and only such a code (R166). -/
theorem requestOf_eq_none (code : Byte) : requestOf? code = none ↔
    let c := code.toNat
    ¬((1 ≤ c ∧ c ≤ 0x07) ∨ (0x10 ≤ c ∧ c ≤ 0x12) ∨ (0x20 ≤ c ∧ c ≤ 0x24) ∨ (0x30 ≤ c ∧ c ≤ 0x34) ∨ (0x40 ≤ c ∧ c ≤ 0x52)) := by
  revert code; decide

/-- The rights of a port, by the codes (R166). -/
theorem permitted_iff (p : Port) (q : Request) : permitted p q = true ↔
    let c := (requestCode q).toNat
    (1 ≤ c ∧ c ≤ 0x07) ∨ (p = .lp ∧ 0x10 ≤ c ∧ c ≤ 0x12) ∨ (p = .tp ∧ 0x20 ≤ c ∧ c ≤ 0x24) ∨
      (p = .sp ∧ 0x30 ≤ c ∧ c ≤ 0x34) ∨ (p = .ep ∧ (c = 0x33 ∨ (0x40 ≤ c ∧ c ≤ 0x52))) := by
  cases p <;> cases q <;> decide

/-! ## Range tests -/

@[simp] theorem slotOf_val (i : SlotId) : slotOf? i.val = some i := by simp [slotOf?]
@[simp] theorem routeOf_val (r : RouteId) : routeOf? r.val = some r := by simp [routeOf?]
@[simp] theorem variantOf_val (v : Variant) : variantOf? v.val = some v := by simp [variantOf?]
@[simp] theorem groupOf_val (g : Fin 16) : groupOf? g.val = some g := by simp [groupOf?]
@[simp] theorem windowOf_val (k : Fin 12) : windowOf? k.val = some k := by simp [windowOf?]

theorem slotOf_eq_none {n : Nat} (h : 191 < n) : slotOf? n = none := by simp [slotOf?]; omega
theorem routeOf_eq_none {n : Nat} (h : 5 < n) : routeOf? n = none := by simp [routeOf?]; omega
theorem variantOf_eq_none {n : Nat} (h : 31 < n) : variantOf? n = none := by simp [variantOf?]; omega
theorem groupOf_eq_none {n : Nat} (h : 15 < n) : groupOf? n = none := by simp [groupOf?]; omega
theorem windowOf_eq_none {n : Nat} (h : 11 < n) : windowOf? n = none := by simp [windowOf?]; omega

/-- A number that names a slot, and the slot it names. -/
theorem slotOf_cases (n : Nat) : (∃ i : SlotId, n = i.val ∧ slotOf? n = some i) ∨ (191 < n ∧ slotOf? n = none) := by
  by_cases h : n < 192
  · exact .inl ⟨⟨n, h⟩, rfl, by simp [slotOf?, h]⟩
  · exact .inr ⟨by omega, slotOf_eq_none (by omega)⟩

/-- A number that names a route, and the route it names. -/
theorem routeOf_cases (n : Nat) : (∃ r : RouteId, n = r.val ∧ routeOf? n = some r) ∨ (5 < n ∧ routeOf? n = none) := by
  by_cases h : n < 6
  · exact .inl ⟨⟨n, h⟩, rfl, by simp [routeOf?, h]⟩
  · exact .inr ⟨by omega, routeOf_eq_none (by omega)⟩

/-- A held number lies in its range, and a number in the range is held as it is. -/
theorem clamp_range {lo hi : Nat} (h : lo ≤ hi) (n : Nat) : lo ≤ clamp lo hi n ∧ clamp lo hi n ≤ hi := by
  unfold clamp; omega

theorem clamp_eq {lo hi : Nat} (h : lo ≤ hi) (n : Nat) :
    clamp lo hi n = if n < lo then lo else if hi < n then hi else n := by
  unfold clamp; split
  · omega
  · split <;> omega

/-! ## Frames -/

/-- Each request's command is taken exactly as its owner takes it (R166). -/
theorem exec_request {i : Instr} (hi : requestIn? i = some (p, q)) (h : s.resetN = .high) (hp : permitted p q = true) :
    exec i s = .next (takeOwner i s) := by
  cases i <;> simp only [requestIn?, Option.some.injEq, Prod.mk.injEq, reduceCtorEq] at hi <;> obtain ⟨rfl, rfl⟩ := hi <;>
    exact takeRequest_taken h hp

/-- A request its port may not send, whatever its operands (R166). -/
theorem exec_forbidden {i : Instr} (hi : requestIn? i = some (p, q)) (h : s.resetN = .high) (hp : permitted p q = false) :
    exec i s = .next (reply p .notPermitted .empty s) := by
  cases i <;> simp only [requestIn?, Option.some.injEq, Prod.mk.injEq, reduceCtorEq] at hi <;> obtain ⟨rfl, rfl⟩ := hi <;>
    exact takeRequest_refused h hp

/-- What a payload spells is a request of its own code on its own port. -/
@[simp] theorem requestIn_commandOf (p : Port) (q : Request) (payload : List Byte) :
    requestIn? (commandOf p q payload) = some (p, q) := by cases q <;> rfl

theorem readFrame_requestIn {payload : List Byte} {i : Instr} (h : readFrame p q payload = some i) :
    requestIn? i = some (p, q) := by
  unfold readFrame at h
  simp only [Option.ite_none_right_eq_some, Option.some.injEq] at h
  rw [← h.2, requestIn_commandOf]

/-- Only a staging request's payload varies in form (R156). -/
theorem payloadForm_commandOf (p : Port) (payload : List Byte)
    (hq : q ∉ [Request.stageSlot, .stageUsage, .stageRoute, .stageWindow, .stageGlobals]) :
    payloadForm (commandOf p q payload) = .plain := by
  cases q <;> first | rfl | (exact absurd (by decide) hq)

/-- A number of four bytes is their bits in the order received (10.5). -/
theorem number32_eq (a b c d : Byte) : number32 a b c d = a ++ b ++ c ++ d := by
  unfold number32
  ext i hi
  simp only [BitVec.getElem_append]
  repeat' split
  all_goals first | rfl | omega

/-- A request with fields takes a payload of 1 to 60 bytes, whatever its form (R164, R166). -/
theorem lengthOf_range (hq : q ∉ [Request.readStatus, .cancelApply, .start, .stop, .runReset, .readCounters])
    (form : PayloadForm) : 1 ≤ lengthOf q form ∧ lengthOf q form ≤ 60 := by
  cases q <;> first | exact absurd (by decide) hq | (simp only [lengthOf]; omega)

/-- A known code with a payload of the right length is its request, and with any other it is none (R166, test 3). -/
theorem readFrame_eq (p : Port) (q : Request) (payload : List Byte) :
    readFrame p q payload =
      if payload.length = lengthOf q (payloadForm (commandOf p q payload)) then some (commandOf p q payload) else none := rfl

/-- A complete frame that the port may send and whose payload spells a request is that request's command (R166). -/
theorem completeFrame_request {code : Byte} {payload : List Byte} {i : Instr} (h : s.resetN = .high)
    (hc : requestOf? code = some q) (hp : permitted p q = true) (hf : readFrame p q payload = some i) :
    exec i s = .next (completeFrame p code payload s) := by
  rw [exec_request (readFrame_requestIn hf) h hp]
  simp only [completeFrame, hc, hp, hf, if_true]

end Sys2Proof.Machine
end

