-- ==== Sys2Proof/Laws/Frames.lean ====
section
/-!
SUPPORT. The port units: that a fall, a rise, an answer and a received byte keep a port's law, and which port each of them moves.
-/

namespace Sys2Proof.Machine

open Sys2Proof

/-! ## One port unit -/

/-- A port at CODE, LENGTH, RESPONSE or DISCARD with a transaction in progress keeps its law whatever it has received. -/
theorem PortUnit.law_of_selected {u : PortUnit} (h : u.selected = true) (hr : ∀ c n got, u.rx ≠ .payload c n got) : u.Law :=
  ⟨fun c n got e => absurd e (hr c n got), fun e => by rw [h] at e; cases e⟩

/-- A fall of CS_N leaves a lawful port (R164). -/
theorem PortUnit.select_law (u : PortUnit) : u.select.Law := law_of_selected rfl fun _ _ _ h => by cases h

/-- A port that is not selected waits at CODE (R175). -/
theorem PortUnit.deselect_law (u : PortUnit) : u.deselect.Law := ⟨fun _ _ _ h => (nomatch h), fun _ => ⟨rfl, rfl⟩⟩

/-- A rise of CS_N leaves the port waiting, in whatever state it was (R164). -/
theorem PortUnit.rise_eq (u : PortUnit) :
    u.rise = { u.deselect with frameErrors := match u.rx with
      | .length _ | .payload .. => bump u.frameErrors
      | .code | .response .. | .discard => u.frameErrors } := by
  unfold PortUnit.rise
  cases u.rx <;> rfl

/-- A rise of CS_N leaves a lawful port (R164, R165). -/
theorem PortUnit.rise_law (u : PortUnit) : u.rise.Law := by
  rw [rise_eq]; exact ⟨fun _ _ _ h => (nomatch h), fun _ => ⟨rfl, rfl⟩⟩

/-- An answered port is lawful (R164). -/
theorem reply_port_law (p : Port) (st : Status) (b : Body) (s : State) : ((reply p st b s).port p).Law := by
  rw [reply_port_self]
  exact PortUnit.law_of_selected rfl fun _ _ _ h => by cases h

/-! ## A received byte -/

/-- Everything a received byte can do at a port, but for completing a frame: the port alone moves (R164, R165). -/
theorem State.receive_cases (s : State) (p : Port) (byte : Byte) :
    (∃ f : PortUnit → PortUnit, s.receive p byte = s.modPort p f) ∨
    (∃ code got, s.receive p byte = completeFrame p code got s) := by
  unfold State.receive
  split
  · exact .inl ⟨_, rfl⟩
  · split
    · exact .inr ⟨_, _, rfl⟩
    · split
      · exact .inl ⟨_, rfl⟩
      · exact .inl ⟨_, rfl⟩
  · split
    · exact .inl ⟨_, rfl⟩
    · exact .inr ⟨_, _, rfl⟩
  · exact .inl ⟨_, rfl⟩
  · exact .inl ⟨_, rfl⟩

/-- A payload byte short of the declared length keeps the port's law (R164). -/
theorem PortUnit.payload_law {u : PortUnit} {code : Byte} {n : Nat} {got : List Byte} (hs : u.selected = true)
    (hn : got.length < n) (hm : n ≤ 60) (sent : Byte) : (u.shift (.payload code n got) sent).Law :=
  ⟨fun _ _ _ e => (by cases e; exact ⟨hn, hm⟩), fun e => by rw [show (u.shift _ sent).selected = u.selected from rfl, hs] at e; cases e⟩

/-- A complete frame of an unknown code, or one that the port may not send, or whose payload has a wrong length, is only answered
(R166). -/
theorem completeFrame_refused {p : Port} {code : Byte} {payload : List Byte} {s : State}
    (h : ∀ q, requestOf? code = some q → permitted p q = true → readFrame p q payload = none) :
    ∃ st, completeFrame p code payload s = reply p st .empty s := by
  unfold completeFrame
  split
  · exact ⟨_, rfl⟩
  next q hq =>
    split
    next hp => rw [h q hq hp]; exact ⟨_, rfl⟩
    · exact ⟨_, rfl⟩

end Sys2Proof.Machine
end

