-- ==== Sys2Proof/Laws/Modes.lean ====
section
/-!
SUPPORT. The resets: what each part of the state is after a run reset, and that a run reset and the power-on state keep the laws
they touch.
-/

namespace Sys2Proof.Machine

open Sys2Proof

/-! ## The run reset, part by part (R179) -/

@[simp] theorem State.runReset_slot (s : State) (i : SlotId) : s.runReset.slot i = (s.slot i).runReset :=
  getElem_mapTable _ s.slots i.val i.isLt

@[simp] theorem State.runReset_route (s : State) (r : RouteId) : s.runReset.route r = (s.route r).runReset :=
  getElem_mapTable _ s.routes r.val r.isLt

@[simp] theorem State.runReset_seq (s : State) (l : Line) : s.runReset.seq l = {} := by cases l <;> rfl

@[simp] theorem State.runReset_clock (s : State) (l : Line) : s.runReset.clock l = (s.clock l).runReset := by
  cases l <;> rfl

@[simp] theorem State.runReset_port (s : State) (p : Port) : s.runReset.port p = { s.port p with frameErrors := 0 } := by
  cases p <;> rfl

@[simp] theorem State.runReset_queue (s : State) (p : Port) : s.runReset.queue p = (s.queue p).runReset := by
  cases p <;> rfl

/-- A run reset keeps the plan, the pins and the commands that wait (R179). -/
theorem State.runReset_rest (s : State) :
    s.runReset = { s with
      plant := 0, clocks := s.runReset.clocks, routes := s.runReset.routes, slots := s.runReset.slots, seqs := ⟨{}, {}⟩
      demand := s.demand.runReset, applyState := .idle, ports := s.runReset.ports, queues := s.runReset.queues } := rfl

/-- A route's buffers after a run reset are the cleared ones (R142). -/
theorem Route.runReset_buffer (x : Route) (h : Half) : (x.runReset.buffers.get h) = (x.buffers.get h).cleared := by
  unfold Route.runReset
  split <;> cases h <;> rfl

@[simp] theorem State.runReset_buffer (s : State) (r : RouteId) (h : Half) :
    s.runReset.buffer r h = (s.buffer r h).cleared := by
  unfold State.buffer
  rw [State.runReset_route, Route.runReset_buffer]

/-- A route after a run reset: configuration, hold and match settings kept, pending timing taken up, the rest of the run state
cleared (R96, R142). -/
theorem Route.runReset_eq (x : Route) :
    x.runReset = { x with
      cfg := { x.cfg with timing := x.next.getD x.cfg.timing }, next := none, c := 0, lap := 0, late := false
      lateCount := 0, overdueCount := 0, heldCount := 0, missedCount := 0, skippedCount := 0, due := none, pointer := 0
      current := none, mismatches := 0, buffers := x.runReset.buffers } := by
  unfold Route.runReset
  cases h : x.next with
  | none => simp [Route.cleared, h]
  | some t =>
    have : (if x.cleared.c < t.period then x.cleared.c else 0) = 0 := ite_self 0
    dsimp only [Route.takeUp]
    rw [this]
    rfl

/-- A run reset keeps a route's counter below its period (R96). -/
theorem Route.runReset_law {x : Route} (h : x.TimingLaw) : x.runReset.TimingLaw := by
  rw [Route.runReset_eq]
  refine ⟨?_, fun t ht => by cases ht⟩
  dsimp only
  cases hn : x.next with
  | none => have := h.counter; show 0 < x.cfg.timing.period; omega
  | some t => have := (h.pending t hn).period_low; show 0 < t.period; omega

/-- A slot after a run reset keeps its configuration and, KANBAN, starts within its range (R23). -/
theorem Slot.runReset_law (x : Slot) : x.runReset.EstimateLaw where
  range hk := by
    have hk' : x.cfg.kind = .kanban := hk
    show (if x.cfg.kind = .kanban then x.cfg.startMp else 0) ≤ x.cfg.fullMp
    rw [if_pos hk']
    unfold SlotConfig.startMp
    split
    · exact Nat.le_refl _
    · exact Nat.min_le_right ..
  empty h := by cases h
  sequenced hk := by
    have hk' : x.cfg.kind = .sequenced := hk
    simp [Slot.runReset, hk']
  unanchored _ := rfl

/-! ## Entering a mode -/

/-- Entering a mode moves the mode and the notices alone (R181). -/
theorem State.enter_rest (s : State) (m : DeviceMode) : s.enter m = { s with mode := m, queues := (s.enter m).queues } := rfl

/-! ## Power-on -/

/-- The power-on state keeps the commands that wait and the pins' levels, and nothing else of the state (R180). -/
theorem State.poweredOn_congr {s t : State} (hp : s.pending = t.pending) (hr : s.resetN = t.resetN)
    (hc : ∀ l, (s.clock l).run = (t.clock l).run) : s.poweredOn = t.poweredOn := by
  have ha : s.clocks.a.run = t.clocks.a.run := hc .a
  have hb : s.clocks.b.run = t.clocks.b.run := hc .b
  simp [State.poweredOn, hp, hr, PerLine.map, ha, hb]

/-- A line's gate at power-on follows its RUN input (R81). -/
theorem State.poweredOn_clock (s : State) (l : Line) :
    s.poweredOn.clock l = ({ run := (s.clock l).run } : LineClock).write .follow := by cases l <;> rfl

end Sys2Proof.Machine
end

