-- ==== Sys2Proof/Laws/Reads.lean ====
section
/-!
SUPPORT. The reads: what a page of a list holds, and that every read request but READ_NOTICES only answers.
-/

namespace Sys2Proof.Machine

open Sys2Proof

@[simp] theorem LineLoad.forPick_bin (c : DemandClass) : (LineLoad.bin c).forPick = .bin := rfl
@[simp] theorem LineLoad.forPick_rack (a z : SeqNo) (n : Nat) : (LineLoad.rack a z n).forPick = .rack a z n := rfl
@[simp] theorem LineLoad.forStop_bin (c : DemandClass) : (LineLoad.bin c).forStop = .bin := rfl
@[simp] theorem LineLoad.forStop_rack (a z : SeqNo) (n : Nat) : (LineLoad.rack a z n).forStop = .rack a := rfl

/-- A page holds the entries from its first number on, at most 8, each under its place (R61, R116, R137, R138). -/
theorem mem_page {α : Type} {first : Nat} {xs : List α} {n : Nat} {y : α} :
    (n, y) ∈ page first xs ↔ first ≤ n ∧ n < first + 8 ∧ xs[n]? = some y := by
  have key : ∀ k : Nat, (numbered xs)[k]? = xs[k]?.map fun y => (k, y) := by
    intro k
    unfold numbered
    by_cases hk : k < xs.length
    · simp [hk]
    · simp [Nat.not_lt.mp hk]
  unfold page readLimit
  rw [List.mem_iff_getElem?]
  constructor
  · rintro ⟨k, hk⟩
    rw [List.getElem?_take, List.getElem?_drop, key] at hk
    split at hk
    · simp only [Option.map_eq_some_iff, Prod.mk.injEq] at hk
      obtain ⟨z, hz, rfl, rfl⟩ := hk
      exact ⟨by omega, by omega, hz⟩
    · cases hk
  · rintro ⟨h1, h2, h3⟩
    refine ⟨n - first, ?_⟩
    rw [List.getElem?_take, if_pos (by omega), List.getElem?_drop, key, Nat.add_sub_cancel' h1, h3]
    rfl

/-- A page's length is what is left from its first number on, at most 8. -/
theorem page_length {α : Type} (first : Nat) (xs : List α) : (page first xs).length = min 8 (xs.length - first) := by
  simp [page, readLimit, numbered]

/-- Every read request but READ_NOTICES answers and does nothing else. -/
theorem takeOwner_read {i : Instr} {p : Port} {q : Request} (hi : requestIn? i = some (p, q))
    (hq : q ∈ [Request.readStatus, .readSlot, .readRoute, .readQueue, .readManifest, .readStopLines, .readPickList,
      .readCounters]) (s : State) :
    ∃ st b, takeOwner i s = reply p st b s := by
  cases i <;> simp only [requestIn?, Option.some.injEq, Prod.mk.injEq, reduceCtorEq] at hi <;> obtain ⟨rfl, rfl⟩ := hi <;>
    first
    | (exfalso; revert hq; decide)
    | (simp only [takeOwner, readStatus, readSlot, readRoute, readQueue, readManifest, readStopLines, readPickList,
        readCounters, atManifest]
       repeat' split
       all_goals exact ⟨_, _, rfl⟩)

end Sys2Proof.Machine
end

