-- ==== Sys2Proof/Laws/Sensors.lean ====
section
/-!
SUPPORT. The sensor checker: what a comparison and a declared discrepancy do to a record, and that each checked slot is judged by
its own record alone.
-/

namespace Sys2Proof.Machine

open Sys2Proof

/-! ## One slot -/

/-- A comparison keeps the kind that goes with the count (R146). -/
theorem Slot.moved_count (x : Slot) (result : Option DiscKind) :
    (x.moved result).disCount ≤ 4 ∧ (x.moved result).disKind = result ∧
      ((x.moved result).disCount = 0 ↔ result = none) := by
  unfold Slot.moved
  cases result with
  | none => simp
  | some k => dsimp only; split <;> simp_all

/-- The count reaches 4 by a comparison exactly from 3 or 4 with the same kind (R146, R147). -/
theorem Slot.moved_four (x : Slot) (k : DiscKind) :
    (x.moved (some k)).disCount = 4 ↔ x.disKind = some k ∧ 3 ≤ x.disCount := by
  unfold Slot.moved
  dsimp only
  split <;> simp_all

/-- A policy moves its own slot, the demand queue and the notices alone (R148). -/
theorem State.actPolicy_rest (s : State) (i : SlotId) :
    s.actPolicy i = { s with
      slots := (s.actPolicy i).slots, demand := (s.actPolicy i).demand, queues := (s.actPolicy i).queues } ∧
      OnlySlot s (s.actPolicy i) i := by
  unfold State.actPolicy
  split
  · exact ⟨rfl, fun _ _ => rfl⟩
  · have h := evaluate_moves i (s.modSlot i Slot.resynced)
    exact ⟨by rw [h.rest]; rfl, fun j hj => by rw [h.others j hj]; simp [hj]⟩
  · exact ⟨rfl, fun j hj => by simp [hj]⟩

/-- What a policy does to its slot's record: REPORT nothing, RESYNC the resync and its evaluation, WITHHOLD the flag (R148, R149). -/
theorem State.actPolicy_slot (s : State) (i : SlotId) :
    match (s.slot i).cfg.policy with
    | .report => (s.actPolicy i).slot i = s.slot i
    | .resync => SameButOrders (s.slot i).resynced ((s.actPolicy i).slot i)
    | .withhold => (s.actPolicy i).slot i = { s.slot i with withheld := true } := by
  unfold State.actPolicy
  cases (s.slot i).cfg.policy
  · rfl
  · simpa using (evaluate_moves i (s.modSlot i Slot.resynced)).own
  · simp

/-- Declaring a discrepancy moves its own slot, the demand queue and the notices alone (R147). -/
theorem State.reachFour_rest (s : State) (i : SlotId) (k : DiscKind) :
    s.reachFour i k = { s with
      slots := (s.reachFour i k).slots, demand := (s.reachFour i k).demand, queues := (s.reachFour i k).queues } ∧
      OnlySlot s (s.reachFour i k) i := by
  unfold State.reachFour
  dsimp only
  refine ⟨?_, fun j hj => ?_⟩
  · rw [(State.actPolicy_rest _ i).1]; split <;> rfl
  · rw [(State.actPolicy_rest _ i).2 j hj]; split <;> simp [hj]

/-- What declaring does to the record: the flag takes the kind, then the policy acts (R147, R148). -/
theorem State.reachFour_slot (s : State) (i : SlotId) (k : DiscKind) :
    let x := { s.slot i with discrepant := some k }
    match (s.slot i).cfg.policy with
    | .report => (s.reachFour i k).slot i = x
    | .resync => SameButOrders x.resynced ((s.reachFour i k).slot i)
    | .withhold => (s.reachFour i k).slot i = { x with withheld := true } := by
  have key : ∀ u : State, u.slot i = { s.slot i with discrepant := some k } →
      match (s.slot i).cfg.policy with
      | .report => (u.actPolicy i).slot i = { s.slot i with discrepant := some k }
      | .resync => SameButOrders ({ s.slot i with discrepant := some k } : Slot).resynced ((u.actPolicy i).slot i)
      | .withhold => (u.actPolicy i).slot i = { s.slot i with discrepant := some k, withheld := true } := by
    intro u hu
    have := u.actPolicy_slot i
    rw [hu] at this
    exact this
  unfold State.reachFour
  dsimp only
  exact key _ (by split <;> simp)

/-! ## A snapshot -/

/-- Everything that checking a bound slot can do (R144 to R147): agreement, disagreement short of 4, or the discrepancy. -/
theorem checkSlot_cases (states : Vector SensorState 32) (w : SnapshotWork) {i : SlotId} {n : Fin 64}
    (hn : (w.st.slot i).cfg.sensor = some n) :
    let x := w.st.slot i
    let result := x.compare states[n.val % 32]
    let s1 := w.st.modSlot i fun x => x.moved result
    (result = none ∧ checkSlot states w i = { w with st := s1 }) ∨
    (∃ k, result = some k ∧ ¬(x.disCount = 3 ∧ x.disKind = some k) ∧
      checkSlot states w i = { w with st := s1, disagreed := w.disagreed + 1 }) ∨
    (∃ k, result = some k ∧ x.disCount = 3 ∧ x.disKind = some k ∧
      checkSlot states w i = {
        st := s1.reachFour i k, disagreed := w.disagreed + 1
        declared := if x.discrepant = none then w.declared + 1 else w.declared }) := by
  intro x result s1
  have e : checkSlot states w i = match result with
      | none => { w with st := s1 }
      | some k => if x.disCount = 3 ∧ x.disKind = some k then {
            st := s1.reachFour i k, disagreed := w.disagreed + 1
            declared := if x.discrepant = none then w.declared + 1 else w.declared }
          else { w with st := s1, disagreed := w.disagreed + 1 } := by
    simp only [checkSlot, hn, x, result, s1]
    all_goals rfl
  rw [e]
  cases hr : result with
  | none => exact .inl ⟨rfl, rfl⟩
  | some k =>
    by_cases h : x.disCount = 3 ∧ x.disKind = some k
    · exact .inr (.inr ⟨k, rfl, h.1, h.2, if_pos h⟩)
    · exact .inr (.inl ⟨k, rfl, h, if_neg h⟩)

/-- Checking a slot moves its own slot, the demand queue and the notices alone. -/
theorem checkSlot_rest (states : Vector SensorState 32) (w : SnapshotWork) (i : SlotId) :
    (checkSlot states w i).st = { w.st with
      slots := (checkSlot states w i).st.slots, demand := (checkSlot states w i).st.demand
      queues := (checkSlot states w i).st.queues } ∧
      OnlySlot w.st (checkSlot states w i).st i := by
  cases hn : (w.st.slot i).cfg.sensor with
  | none =>
    have e : checkSlot states w i = w := by unfold checkSlot; dsimp only; rw [hn]
    rw [e]; exact ⟨rfl, fun _ _ => rfl⟩
  | some n =>
    obtain ⟨-, e⟩ | ⟨k, -, -, e⟩ | ⟨k, -, -, -, e⟩ := checkSlot_cases states w hn <;> rw [e]
    · exact ⟨rfl, fun j hj => by simp [hj]⟩
    · exact ⟨rfl, fun j hj => by simp [hj]⟩
    · exact ⟨by rw [(State.reachFour_rest _ i k).1]; rfl,
        fun j hj => by rw [(State.reachFour_rest _ i k).2 j hj]; simp [hj]⟩

/-- A snapshot's checks move slots, the demand queue and the notices alone. -/
theorem foldl_checkSlot_rest (states : Vector SensorState 32) (is : List SlotId) (w : SnapshotWork) :
    (is.foldl (checkSlot states) w).st = { w.st with
      slots := (is.foldl (checkSlot states) w).st.slots, demand := (is.foldl (checkSlot states) w).st.demand
      queues := (is.foldl (checkSlot states) w).st.queues } := by
  induction is generalizing w with
  | nil => rfl
  | cons i is ih => rw [List.foldl_cons, ih, (checkSlot_rest states w i).1]

/-- A slot that is not in the list keeps its record through the checks. -/
theorem foldl_checkSlot_other (states : Vector SensorState 32) (j : SlotId) (is : List SlotId) (w : SnapshotWork) (h : j ∉ is) :
    (is.foldl (checkSlot states) w).st.slot j = w.st.slot j := by
  induction is generalizing w with
  | nil => rfl
  | cons i is ih =>
    rw [List.foldl_cons, ih _ (List.not_mem_of_not_mem_cons h)]
    exact (checkSlot_rest states w i).2 j (List.ne_of_not_mem_cons h)

end Sys2Proof.Machine
end

