-- ==== Sys2Proof/Tests/Slice0.lean ====
section
/-!
SUPPORT. Tests: ill-formed commands that the checks refuse, and single steps whose expected results are the manual's own worked
cases (their section is named at each) or are worked out by hand from the rule named.
-/

namespace Sys2Proof.Tests

open Sys2Proof Sys2Proof.Machine

/-! ## Helpers -/

/-- The state after a command, or the state before it where the command does not answer one. -/
def after (c : Instr) (s : State) : State :=
  match exec c s with
  | .next t => t
  | _ => s

/-- The status and body a port's response carries. -/
def answer (p : Port) (t : State) : Option Response :=
  match (t.port p).rx with
  | .response f _ => some f
  | _ => none

/-- The events in a port's notice queue, oldest first. -/
def told (p : Port) (t : State) : List Event := (t.queue p).items.map (·.event)

/-- The part right after reset, put in ACTIVE. -/
def active : State := { State.reset with mode := .active }

/-- A state with one slot's record replaced. -/
def withSlot (s : State) (i : SlotId) (x : Slot) : State := s.modSlot i fun _ => x

/-! ## Well-formedness -/

theorem test_unknown_with_a_known_code_is_ill_formed : (Instr.unknown .lp 0x10 []).wellFormed = false := by decide
theorem test_unknown_with_61_bytes_is_ill_formed :
    (Instr.unknown .lp 0x08 (List.replicate 61 0)).wellFormed = false := by decide
theorem test_unknown_with_60_bytes_is_well_formed :
    (Instr.unknown .lp 0x08 (List.replicate 60 0)).wellFormed = true := by decide
theorem test_overlong_discard_of_60_is_ill_formed : (Instr.frameDiscard .tp (.overlong 60)).wellFormed = false := by
  decide
theorem test_overlong_discard_of_61_is_well_formed : (Instr.frameDiscard .tp (.overlong 61)).wellFormed = true := by
  decide

/-- The codes WellFormed calls known are those the ports know (R166). -/
theorem test_knownCode_is_requestOf : ∀ code : Byte, knownCode code = (requestOf? code).isSome := by decide

/-! ## The block's queue -/

theorem test_step_takes_the_oldest_command :
    (match step { active with pending := [.runEdge .b .high, .powerOn] } with
      | .next t => decide (t.pending = [Instr.powerOn]) && (t.clock .b).isOpen
      | _ => false) = true := by
  decide

theorem test_no_word_spells_a_command : State.reset.withFetchWord 16 7 = State.reset := rfl

/-! ## Slots and draws (1.9) -/

/-- Slot 37 of 1.9. -/
def cfg37 : SlotConfig :=
  { status := .active, group := 4, allowance := 5, size := .m, cq := 40, mc := 3, rop := 50, start := .full }

/-- Line A's usage of 1.9. -/
def usage37 : LineUsage :=
  { q := ((Vector.replicate 32 (Vector.replicate 16 0)).set 7 ((Vector.replicate 16 0).set 4 2)).set 3
      ((Vector.replicate 16 0).set 4 1)
    allowance := (Vector.replicate 16 0).set 4 20 }

/-- The part of 1.9 with slot 37 at a level. -/
def case37 (oh ordered : Nat) : State :=
  withSlot { active with usage := ⟨usage37, {}⟩ } 37 { cfg := cfg37, oh := oh, ordered := ordered }

/-- 1.9, the table of draws. -/
theorem test_draws_of_1_9 : drawMp 2 20 5 = 2050 ∧ drawMp 1 20 5 = 1025 ∧ drawMp 0 20 5 = 0 := by decide

/-- 1.9, event 3: the 35th draw crosses the reorder point. -/
theorem test_advance_draws_and_orders :
    let t := after (.advance .lp (some .a) 9 7 false) (case37 50300 0)
    (t.slot 37).oh = 48250 ∧ (t.slot 37).ordered = 1 ∧
      t.demand.lines.map (fun d => (d.slot, d.containers, d.cls)) = [(37, 1, .kanban)] := by
  decide

/-- 1.9, event 8: a draw beyond OH. -/
theorem test_advance_runs_a_slot_short :
    let t := after (.advance .lp (some .a) 9 7 false) (case37 1100 2)
    (t.slot 37).oh = 0 ∧ (t.slot 37).short = true ∧ (t.slot 37).shortfalls = 1 ∧ (t.slot 37).ordered = 2 ∧
      told .sp t = [.shortfall 37 9 1] := by
  decide +kernel

/-- 1.9, the last paragraph: a bin delivered at 95,000 overfills. -/
theorem test_delivered_bin_overfills :
    (((case37 95000 2).deliverBin 37).slot 37).oh = 120000 ∧ (((case37 95000 2).deliverBin 37).slot 37).overfills = 1 ∧
      (((case37 95000 2).deliverBin 37).slot 37).ordered = 1 := by
  decide

/-- R21: IP is 48,250 + 1 × 40,000 (1.9, event 3). -/
theorem test_readSlot_reports_the_position :
    answer .tp (after (.readSlot .tp 37) (case37 48250 1)) =
      some ⟨.ok, .slot { slot := { cfg := cfg37, oh := 48250, ordered := 1 }, ip := 88250, marks := none }⟩ := by
  decide

/-! ## Sequences and racks (2.9) -/

/-- A run of units from a sequence number on. -/
def unitsFrom (first : SeqNo) : List Variant → List AnnouncedUnit
  | [] => []
  | v :: vs => ⟨first, v, false⟩ :: unitsFrom (first + 1) vs

/-- Line A of 2.9: its usage in group 9, its list, and slot 80 with its marks. -/
def case80 (units : List AnnouncedUnit) (last : SeqNo) (marks : Marks) : State :=
  withSlot
    { active with
      usage := ⟨{ q := ((Vector.replicate 32 (Vector.replicate 16 0)).set 2 ((Vector.replicate 16 0).set 9 1)).set 5
                    ((Vector.replicate 16 0).set 9 1) }, {}⟩
      seqs := ⟨{ units := units, last := some last }, {}⟩ }
    80 { cfg := { kind := .sequenced, status := .active, group := 9, rackSize := 4, minLead := 2 }, marks := some marks }

/-- 2.9, event 1. -/
theorem test_announce_anchors :
    let s := withSlot active 80 { cfg := { kind := .sequenced, status := .active } }
    let t := after (.announce .lp (some .a) 1000 2 false) s
    (t.slot 80).marks = some ⟨999, 999⟩ ∧ (t.seq .a).last = some 1000 ∧ answer .lp t = some ⟨.ok, .announced 1⟩ := by
  decide

/-- 2.9, event 3. -/
theorem test_announce_out_of_order :
    let s := case80 (unitsFrom 1000 [2, 4, 5, 2, 5, 4, 2, 2, 0, 5, 2, 4]) 1011 ⟨999, 999⟩
    answer .lp (after (.announce .lp (some .a) 1013 2 false) s) = some ⟨.outOfOrder, .sequence (some 1011) 12⟩ := by
  decide

/-- 2.9, events 4 and 16: a full rack, and a partial one for want of lead. -/
theorem test_racks_of_2_9 :
    (case80 (unitsFrom 1000 [2, 4, 5, 2, 5, 4, 2, 2, 0, 5, 2, 4]) 1011 ⟨999, 999⟩).eligibleRack 80 = some ⟨1000, 1004, 4⟩ ∧
    (case80 (unitsFrom 1010 [2, 4, 2]) 1012 ⟨1010, 1010⟩).eligibleRack 80 = some ⟨1012, 1012, 1⟩ := by
  decide

/-- 2.9, event 9: two units pulled, two orphans. -/
theorem test_advance_pulls :
    let t := after (.advance .lp (some .a) 1005 4 false) (case80 (unitsFrom 1003 [2, 5, 4, 2]) 1006 ⟨1010, 1004⟩)
    (t.seq .a).units.map (·.seq) = [1006] ∧ told .sp t = [.seqBreak .a 1005 2 2] ∧
      answer .lp t = some ⟨.ok, .advanced .pulled 2 1⟩ := by
  decide

/-- 2.9, events 10 and 11: not delivered, and unannounced. -/
theorem test_advance_starves :
    told .ep (after (.advance .lp (some .a) 1006 2 false) (case80 (unitsFrom 1006 [2, 2]) 1007 ⟨1010, 1004⟩)) =
      [.seqStarved 80 1006 .notDelivered] ∧
    told .ep (after (.advance .lp (some .a) 2000 2 false) (case80 (unitsFrom 1007 [2]) 1007 ⟨1010, 1004⟩)) =
      [.seqStarved 80 2000 .unannounced] := by
  decide

/-- R25: across the wrap, and 32768 apart. -/
theorem test_sequence_numbers_wrap :
    seqAfter 2 65534 = true ∧ seqAfter 65534 2 = false ∧ seqAfter 0 32768 = false ∧ seqAfter 32768 0 = false := by
  decide

/-! ## Demand (3.13, 3.14) -/

/-- 3.13, the first table. -/
theorem test_ranks_of_3_13 :
    ([⟨5, 2, .kanban, 41200, 3, false⟩, ⟨9, 1, .topup, 41950, 2, false⟩, ⟨40, 1, .urgent, 43010, 0, false⟩,
      ⟨41, 2, .kanban, 43600, 1, false⟩] : List DemandLine).map (DemandLine.effectiveRank 2) = [1, 2, 1, 2] := by
  decide

/-- A queue of so many lines, of slots 80 on. -/
def crowd (n : Nat) : List DemandLine :=
  (List.range n).map fun k => ⟨Fin.ofNat 192 (80 + k), 1, .kanban, 0, 0, false⟩

/-- 3.14, event 3: an order refused at 112 lines. -/
theorem test_order_refused_at_112 :
    let s := { case37 0 0 with demand := { lines := crowd 112, highArmed := false } }
    let t := s.order 37 1
    (t.slot 37).blocked = true ∧ t.demand.ordersRefused = 1 ∧ t.demand.fullArmed = false ∧
      told .ep t = [.queueFull 37 .order 1] ∧ t.demand.lines.length = 112 := by
  decide

/-- 3.14, event 7: a return dropped at 128 lines, QUEUE_FULL disarmed. -/
theorem test_return_dropped_at_128 :
    let s := { case37 0 2 with demand := { lines := (crowd 112) ++ (crowd 16), fullArmed := false } }
    let t := s.returnBins 37 2 .urgent
    (t.slot 37).ordered = 0 ∧ t.demand.returnsDropped = 2 ∧ told .ep t = [] := by
  decide +kernel

/-- R48: a top-up is granted up to MC − ordered. -/
theorem test_topup_is_bounded :
    answer .ep (after (.topup .ep 37 9) (case37 50300 1)) = some ⟨.ok, .granted 2⟩ ∧
    answer .ep (after (.topup .ep 37 1) (case37 50300 3)) = some ⟨.atMax, .limit .slot⟩ := by
  decide

/-- R49: the cancelled containers leave ordered. -/
theorem test_cancelDemand_answers_the_line :
    let s := { case37 0 3 with demand := { lines := [⟨37, 2, .topup, 5, 1, false⟩] } }
    let t := after (.cancelDemand .ep 37) s
    answer .ep t = some ⟨.ok, .demandCancelled 2 (some .topup)⟩ ∧ (t.slot 37).ordered = 1 ∧ t.demand.lines = [] := by
  decide

/-! ## Coverage (4.8) -/

/-- The windows and stop lists of 4.8; `diverted` after event 1. -/
def case4 (diverted : Bool) : State :=
  let five (x : Route) : Route := { x with cfg := { x.cfg with stops := [1, 2, 3, 4, 5] } }
  let s := ({ active with
    coverage := (active.coverage.set 3 ⟨true, 0x120000, 0xFF0000, 2, 1, some 12⟩).set 7 ⟨true, 0x130000, 0xFF0000, 3, 0, none⟩
    }.modRoute 2 five).modRoute 4 five
  if diverted then after (.setDivert .ep 0 ⟨true, 0x125000, 0xFFF000, 4, 2, none⟩) s else s

/-- 4.8, the table of slots. -/
theorem test_mappings_of_4_8 :
    (case4 false).mapCode 0x1234A1 = some (2, 4) ∧ (case4 false).mapCode 0x1251C0 = some (2, 4) ∧
      (case4 false).mapCode 0x1302B3 = some (3, 0) ∧ (case4 false).mapCode 0x1402B3 = none := by
  decide

/-- 4.8, event 1: the divert takes one bay group. -/
theorem test_setDivert_takes_a_bay_group :
    (case4 true).mapCode 0x1251C0 = some (4, 2) ∧ (case4 true).mapCode 0x1234A1 = some (2, 4) := by
  decide

/-! ## Clocks and routes (5.10) -/

/-- R78: an edge opens a FOLLOW gate; R79: STOP_ONCE closes once. -/
theorem test_runEdge_moves_gates :
    ((after (.runEdge .a .high) active).clock .a).isOpen = true ∧
    ((after (.runEdge .a .low) { active with clocks := ⟨{ mode := .stopOnce, isOpen := true, run := .high }, {}⟩ }).clock .a
      ).isOpen = false := by
  decide

/-- R80: SET_GATE(OPEN) opens a gate whose RUN is low. -/
theorem test_setGate_opens :
    let t := after (.setGate .ep (some .b) (some .opened)) active
    (t.clock .b).isOpen = true ∧ answer .ep t = some ⟨.ok, .gate .opened true false⟩ := by
  decide

/-- Route 2 of 5.10 at a count, with a route event due. -/
def case5 (c : Nat) (due : Option RouteEvent) : State :=
  active.modRoute 2 fun x => { x with
    cfg := { x.cfg with timing := { enabled := true, source := .line .a, period := 1200, buildAt := 900, departAt := 300 } }
    c := c, lap := 1, due := due }

/-- 5.10, events 8 to 9: the build point falls due at 900, with line A's gate open and not with it closed. -/
theorem test_decisecond_reaches_the_build_point :
    let s (open_ : Bool) := { case5 899 none with clocks := ⟨{ isOpen := open_ }, {}⟩ }
    ((after .decisecondEnd (s true)).route 2).due = some .build ∧ ((after .decisecondEnd (s true)).clock .a).time = 1 ∧
      ((after .decisecondEnd (s false)).route 2).c = 899 ∧ (after .decisecondEnd (s false)).plant = 1 := by
  decide

/-- 5.10, event 10. -/
theorem test_wrap_starts_a_lap :
    ((after (.wrap 2) (case5 1199 (some .wrap))).route 2).c = 0 ∧
      ((after (.wrap 2) (case5 1199 (some .wrap))).route 2).lap = 2 := by
  decide

/-- 5.10, event 14: the older manifest is overdue, the newer goes late, in that order. -/
theorem test_departurePoint_judges_oldest_first :
    let s := (case5 300 (some .departure)).modRoute 2 fun x => { x with
      buffers := ⟨{ state := .onRoute, lap := 0, seen := 1 }, { state := .loaded, lap := 1 }⟩, pointer := 0 }
    let t := after (.departurePoint 2) s
    told .ep t = [.overdue 2 0 0, .late 2 1 .loaded] ∧ (t.route 2).late = true ∧ (t.buffer 2 .lower).seen = 2 := by
  decide

/-- R89: a skipped lap is counted. -/
theorem test_skippedPoint_counts :
    ((after (.skippedPoint 2) (case5 0 (some .skipped))).route 2).skippedCount = 1 := by decide

/-- R91 to R93: the answers are the flags as they were. -/
theorem test_route_flags :
    answer .sp (after (.ackLate .sp 2) (after (.presetLate .ep 2) active)) = some ⟨.ok, .was true⟩ ∧
    answer .ep (after (.setHold .ep 2 true) active) = some ⟨.ok, .was false⟩ ∧
    ((after (.setHold .ep 2 true) active).route 2).hold = true := by
  decide

/-! ## Building (6.10) -/

/-- Route 2 at its lap 7 build point in 6.10, without slot 80's rack: every code maps to route 2, stop 4, but slot 14's; the
slots are KANBAN and ACTIVE but slot 46. -/
def case6 : State :=
  let slot (z : SizeClass) (st : SlotStatus) (n : Nat) (code : Location) : Slot :=
    { cfg := { status := st, size := z, cq := 10, mc := 4, location := code }, ordered := n }
  let s := { active with
    plant := 52400
    coverage := (active.coverage.set 0 ⟨true, 0x10, 0x10, 2, 4, none⟩).set 1 ⟨true, 0x20, 0x20, 3, 0, none⟩
    demand := { lines := [⟨14, 1, .kanban, 43000, 2, false⟩, ⟨37, 2, .kanban, 44100, 3, false⟩, ⟨52, 4, .kanban, 45300, 0, false⟩,
      ⟨45, 2, .topup, 46800, 4, false⟩, ⟨47, 1, .kanban, 48200, 1, false⟩, ⟨46, 2, .kanban, 49000, 0, false⟩,
      ⟨50, 3, .urgent, 51900, 0, false⟩] } }
  let s1 := s.modRoute 2 fun x => { x with
    cfg := { x.cfg with caps := ⟨6, 2, 0⟩, stops := [1, 2, 3, 4, 5] }, lap := 7, due := some .build
    buffers := ⟨{ state := .onRoute, lap := 6, stops := some [1, 2, 3, 4, 5] }, {}⟩ }
  let s2 := withSlot (withSlot s1 14 (slot .s .active 1 0x20)) 37 (slot .m .active 2 0x10)
  let s3 := withSlot (withSlot s2 52 (slot .s .active 4 0x10)) 45 (slot .s .active 2 0x10)
  let s4 := withSlot (withSlot s3 47 (slot .m .active 1 0x10)) 46 (slot .s .suspended 2 0x10)
  withSlot s4 50 (slot .s .active 3 0x10)

/-- 6.10, the assignment: the bins in selection order, and the load. -/
theorem test_build_assigns_by_rank_and_age :
    let b := (after (.buildPoint 2) case6).buffer 2 .upper
    b.lines.map (fun y => (y.slot, y.planned)) = [(37, 2), (45, 2), (50, 3), (52, 1)] ∧ b.load = ⟨6, 2, 0⟩ ∧
      b.state = .offered ∧ b.lap = 7 ∧ b.builtAt = 52400 := by
  decide

/-- 6.10, the queue after the build. -/
theorem test_build_leaves_the_queue :
    (after (.buildPoint 2) case6).demand.lines.map (fun d => (d.slot, d.containers, d.passes)) =
      [(14, 1, 2), (52, 3, 1), (47, 1, 2), (46, 2, 0)] := by
  decide

/-! ## The lap (7.12) -/

/-- Route 4's manifest of 7.12 in a state, the train at a stop. -/
def case7 (st : BufferState) (current : Option Nat) : State :=
  let line (load : LineLoad) (i : SlotId) (stop n : Nat) : ManifestLine :=
    ⟨load, i, BitVec.ofNat 32 i.val, .s, stop, n, n, 0, .planned⟩
  let lines := [line (.bin .kanban) 100 0 2, line (.rack 3400 3405 4) 120 1 1, line (.bin .urgent) 101 2 1,
    line (.bin .kanban) 102 3 2, line (.bin .topup) 103 3 1, line (.bin .kanban) 104 4 3]
  let kanban (n : Nat) : Slot := { cfg := { status := .active, cq := 10, mc := 4 }, ordered := n }
  let s := { active with demand := { lines := [⟨102, 1, .kanban, 7, 0, false⟩] } }.modRoute 4 fun x => { x with
    cfg := { x.cfg with stops := [21, 22, 23, 24, 25, 26] }
    pointer := (current.map (· + 1)).getD 0, current := current
    buffers := ⟨{ state := st, lap := 15, load := carriedLoad lines, lines := lines,
                  stops := if st = BufferState.onRoute then some [21, 22, 23, 24, 25, 26] else none }, {}⟩ }
  let s1 := withSlot (withSlot (withSlot s 100 (kanban 2)) 102 (kanban 3)) 103 (kanban 1)
  withSlot (withSlot s1 104 (kanban 3)) 120 { cfg := { kind := .sequenced, status := .active }, marks := some ⟨3405, 3399⟩ }

/-- 7.12, event 2. -/
theorem test_shortPick_returns_two :
    let t := after (.shortPick .sp 4 15 5 1) (case7 .picking none)
    answer .sp t = some ⟨.ok, .held 1⟩ ∧ t.demand.lines.map (fun d => (d.slot, d.containers, d.cls)) =
      [(102, 1, .kanban), (104, 2, .urgent)] ∧ (t.slot 104).ordered = 3 ∧ told .sp t = [.linesReturned 4 15 .shortPick 1] := by
  decide

/-- R124, R126: picking begins and the load is confirmed. -/
theorem test_picking_states :
    ((after (.beginPick .sp 4 15) (case7 .offered none)).buffer 4 .lower).state = .picking ∧
    ((after (.loadConfirm .sp 4 15) (case7 .picking none)).buffer 4 .lower).state = .loaded := by
  decide

/-- 7.12, event 4. -/
theorem test_depart_takes_the_stops :
    let t := after (.depart .tp 4) (case7 .loaded none)
    answer .tp t = some ⟨.ok, .departed 15 6 6⟩ ∧ (t.buffer 4 .lower).state = .onRoute := by
  decide

/-- 7.12, events 7, 8 and 11: a miss, a bin, a rack. -/
theorem test_drops_of_7_12 :
    answer .tp (after (.drop .tp 4 ⟨101, 0⟩) (case7 .onRoute (some 0))) = some ⟨.mismatch, .missed 0 1⟩ ∧
    answer .tp (after (.drop .tp 4 ⟨100, 0⟩) (case7 .onRoute (some 0))) = some ⟨.ok, .dropped 0 100 1 2 .planned⟩ ∧
    ((after (.drop .tp 4 ⟨120, 3400⟩) (case7 .onRoute (some 1))).slot 120).marks = some ⟨3405, 3405⟩ := by
  decide

/-- 7.12, event 14 (slot 101's line still PLANNED here, so it goes back too). -/
theorem test_arrive_returns_the_stops_left :
    let t := after (.arrive .tp 4 25) (case7 .onRoute (some 2))
    answer .tp t = some ⟨.ok, .arrived 4 3 1⟩ ∧ (t.route 4).current = some 4 ∧ (t.route 4).pointer = 5 ∧
      told .sp t = [.linesReturned 4 15 .skipped 3] := by
  decide

/-- 7.12, events 15 and 17: behind, and the lap's end. -/
theorem test_lap_ends :
    answer .tp (after (.arrive .tp 4 24) (case7 .onRoute (some 4))) = some ⟨.behind, .empty⟩ ∧
    ((after (.lapEnd .tp 4) (case7 .onRoute (some 4))).buffer 4 .lower).state = .free ∧
    answer .tp (after (.lapEnd .tp 4) (case7 .onRoute (some 4))) = some ⟨.ok, .lapEnded 15 6 9⟩ := by
  decide

/-- R127, R52: a cancelled bin goes back with its class. -/
theorem test_cancelManifest_keeps_the_class :
    ((after (.cancelManifest .ep 4 15) (case7 .loaded none)).demand.lines.filter (·.slot == 103)).map (·.cls) = [.topup] := by
  decide

/-- R138: the open lines of the stop, in manifest order; of a rack its first seq alone. -/
theorem test_readStopLines_gives_the_open_lines :
    let read (current : Option Nat) (k : StopLines → Bool) : Bool :=
      match answer .tp (after (.readStopLines .tp 4) (case7 .onRoute current)) with
      | some ⟨.ok, .stopLines r⟩ => k r
      | _ => false
    read (some 3) (fun r => decide (r.openCount = 2 ∧ r.lines.map (·.number) = [3, 4] ∧ r.stopId = some 24)) = true ∧
      read (some 1) (fun r => decide (r.lines.map (·.load) = [.rack 3400])) = true := by
  decide

/-- R137: a page of the pick list; a rack has its units, a bin no class. -/
theorem test_readPickList_gives_a_page :
    let read (first : Nat) (k : PickList → Bool) : Bool :=
      match answer .sp (after (.readPickList .sp 4 15 first) (case7 .loaded none)) with
      | some ⟨.ok, .pickList r⟩ => k r
      | _ => false
    read 4 (fun r => decide (r.lineCount = 6 ∧ r.lines.map (·.number) = [4, 5] ∧ r.lines.map (·.load) = [.bin, .bin])) = true ∧
      read 1 (fun r => decide (r.lines.head?.map (·.load) = some (.rack 3400 3405 4))) = true := by
  decide

/-- R116: the manifest's own fields. -/
theorem test_readManifest_reports :
    (match answer .lp (after (.readManifest .lp 4 15 5) (case7 .loaded none)) with
      | some ⟨.ok, .manifest r⟩ => decide (r.number = 8 ∧ r.load = ⟨10, 0, 0⟩ ∧ r.lines.map (·.1) = [5])
      | _ => false) = true := by
  decide

/-! ## Sensors (8.9) -/

/-- Slot 37 of 8.9 with a policy and a count. -/
def case8 (policy : Policy) (kind : Option DiscKind) (count : Nat) (discrepant : Option DiscKind) : State :=
  withSlot active 37
    { cfg := { cfg37 with sensor := some 12, eye := 30, band := 5, policy := policy }, oh := 49950, ordered := 1,
      disKind := kind, disCount := count, discrepant := discrepant }

/-- 8.9, event 7 under RESYNC. -/
theorem test_snapshot_resyncs :
    let t := after (.sensorSnapshot .lp 0 (Vector.replicate 32 .uncovered)) (case8 .resync (some .under) 3 none)
    (t.slot 37).oh = 30000 ∧ (t.slot 37).resyncs = 1 ∧ (t.slot 37).disCount = 0 ∧ (t.slot 37).discrepant = some .under ∧
      answer .lp t = some ⟨.ok, .snapshot 1 1 1⟩ ∧ told .sp t = [.discrepancy 37 .under .resync] := by
  decide

/-- 8.9, events 7 and 9 under WITHHOLD. -/
theorem test_withheld_slot_is_not_cleared :
    ((after (.sensorSnapshot .lp 0 (Vector.replicate 32 .uncovered)) (case8 .withhold (some .under) 3 none)).slot 37
      ).withheld = true ∧
    answer .ep (after (.clearDiscrepancy .ep 37) (case8 .withhold (some .under) 4 (some .under))) =
      some ⟨.stillPresent, .disagreement (some .under) 4⟩ := by
  decide

/-! ## Staging (9.6) -/

/-- 9.6 before event 6: the plan armed for line A, slot 37's three bins on route 2's train. -/
def case9 : State :=
  let cfg : SlotConfig := { cfg37 with mc := 2 }
  let s := { case37 0 3 with
    applyState := .armed .a
    image := { active.image with
      slots := active.image.slots.set 37 cfg
      usage := ⟨{ usage37 with q := usage37.q.set 7 ((Vector.replicate 16 0).set 4 1) }, {}⟩ } }
  s.modRoute 2 fun x => { x with
    buffers := ⟨{ state := .onRoute, stops := some [0], lines := [⟨.bin .kanban, 37, 0, .m, 0, 3, 3, 0, .planned⟩] }, {}⟩ }

/-- 9.6, event 6: the apply inside the advance, ROP clamped to 40. -/
theorem test_marked_advance_applies :
    let t := after (.advance .lp (some .a) 5121 7 true) case9
    t.applyState = .idle ∧ (t.slot 37).cfg.mc = 2 ∧ (t.slot 37).cfg.rop = 40 ∧ t.image.slots[37].rop = 40 ∧
      (t.slot 37).ordered = 3 ∧ (t.slot 37).shortfalls = 1 ∧
      (told .lp t).take 1 = [.planApplied (some .a) 5121 .atMark 1] := by
  decide

/-- 9.6, events 3 and 4; R158: the cancel answers what it found. -/
theorem test_armed_stage_is_locked :
    answer .ep (after (.stageGlobals .ep (.write ⟨2, 96⟩)) case9) = some ⟨.stageLocked, .empty⟩ ∧
    answer .ep (after (.cancelApply .ep) case9) = some ⟨.ok, .applyState (.armed .a)⟩ ∧
    (after (.apply .ep (some .atMark) (some .b)) active).applyState = .armed .b := by
  decide

/-- R156: clamps when staged, at both ends (R43, R59, R82, R63, R10). -/
theorem test_staged_fields_are_clamped :
    answer .ep (after (.stageGlobals .ep (.write ⟨8, 0⟩)) active) = some ⟨.ok, .stagedGlobals 7 1⟩ ∧
    answer .ep (after (.stageUsage .ep (some .a) (.variant 31) 14 (.write [16, 3])) active) = some ⟨.ok, .stagedUsage [15, 3]⟩ ∧
    ((after (.stageRoute .ep 5 (.write ⟨true, some .plant, 1, 0, 0, 49, 17, 7, [1], some .any, 0⟩)) active).image.routes[5]).caps =
      ⟨48, 16, 6⟩ ∧
    answer .ep (after (.stageWindow .ep 11 (.write ⟨true, 0, 0, 5, 16, some 21⟩)) active) =
      some ⟨.ok, .stagedWindow ⟨true, 0, 0, 5, 15, some 20⟩⟩ := by
  decide

/-- R156, R3: a slot's clamps, and a refused sensor. -/
theorem test_staged_slot :
    let f : SlotFields :=
      { kind := some .kanban, status := some .active, line := some .b, location := 0, part := 0, group := 15, allowance := 251,
        size := some .l, cq := 0, mc := 5, rop := 7, start := none, sensor := some 63, eye := 0, band := 256,
        policy := some .report, rackSize := 13, minLead := 25 }
    let c := (after (.stageSlot .ep 191 (.write f)) active).image.slots[191]
    (c.allowance, c.cq, c.mc, c.band, c.rackSize, c.minLead, c.start) = (250, 1, 4, 255, 12, 24, .full) ∧
      answer .ep (after (.stageSlot .ep 191 (.write { f with sensor := some 64 })) active) = some ⟨.badArg, .empty⟩ := by
  decide

/-! ## Ports and notices (10.5, 10.6) -/

/-- 10.6, event 6 under HALT, and the same under STREAM. -/
theorem test_copy_at_a_full_queue :
    let n : Notice := ⟨.late 4 0 .offered, 0⟩
    let q : NoticeQueue := { items := List.replicate 16 n, threshold := 2 }
    (q.arrive ⟨.queueHigh 3 96, 0⟩).marker = true ∧ (q.arrive ⟨.queueHigh 3 96, 0⟩).lost = 1 ∧
      ({ q with mode := .stream }.arrive ⟨.queueHigh 3 96, 0⟩).items.getLast? = some ⟨.queueHigh 3 96, 0⟩ := by
  decide

/-- 10.6, event 7; R172. -/
theorem test_queue_requests :
    let s := active.modQueue .sp fun q => { q with items := List.replicate 16 ⟨.late 4 0 .offered, 0⟩, marker := true }
    ((after (.readNotices .sp 8) s).queue .sp).items.length = 8 ∧ ((after (.readNotices .sp 8) s).queue .sp).marker = true ∧
      answer .sp (after (.setNoticeMode .sp (some .stream) 2) s) = some ⟨.ok, .noticeMode .stream 2 16 true⟩ := by
  decide

/-- 10.5: the bytes of a SHORTFALL notice record. -/
theorem test_notice_record :
    (Notice.record ⟨.shortfall 37 0x1234 1, 0x00010203⟩) = [0x05, 37, 0x12, 0x34, 0, 1, 0, 1, 0, 1, 2, 3] := by decide

/-- 10.5, R164: the last byte of a DROP frame is a DROP. -/
theorem test_drop_frame :
    let s := (case7 .onRoute (some 0)).modPort .tp fun u => { u with
      selected := true, rx := .payload 0x22 7 [4, 0, 0, 0, 100, 0] }
    answer .tp (after (.byteReceived .tp 0) s) = some ⟨.ok, .dropped 0 100 1 2 .planned⟩ := by
  decide

/-- R165: CS_N rising in PAYLOAD, and a declared length of 61. -/
theorem test_discarded_frames :
    let s (rx : Receive) := active.modPort .lp fun u => { u with selected := true, rx := rx }
    ((after (.transactionEnd .lp) (s (.payload 1 2 [3]))).port .lp).frameErrors = 1 ∧
      ((after (.byteReceived .lp 61) (s (.length 1))).port .lp).rx = .discard ∧
      ((after (.frameDiscard .lp .chipSelect) (s (.length 1))).port .lp).frameErrors = 1 ∧
      ((after (.csNFall .lp) active).port .lp).rx = .code := by
  decide

/-- R166: an unknown code, and a request of another port. -/
theorem test_refused_frames :
    answer .lp (after (.unknown .lp 0x53 [1]) active) = some ⟨.unknown, .empty⟩ ∧
    answer .sp (after (.announce .sp (some .a) 1 1 false) active) = some ⟨.notPermitted, .empty⟩ := by
  decide

/-! ## Modes (chapter 11) -/

/-- R177: not ready from COLD; ready with one route enabled and one slot ACTIVE. -/
theorem test_start_from_cold :
    let s := withSlot (State.reset.modRoute 0 fun x => { x with cfg := { x.cfg with timing := { enabled := true } } }) 37
      { cfg := cfg37 }
    answer .ep (after (.start .ep) State.reset) = some ⟨.notReady, .empty⟩ ∧ (after (.start .ep) s).mode = .active ∧
      ((after (.start .ep) s).slot 37).oh = 120000 ∧ told .tp (after (.start .ep) s) = [.modeChanged .active .cold] := by
  decide

/-- R178, R179. -/
theorem test_stop_and_runReset :
    (after (.stop .ep) active).mode = .standby ∧
    ((after (.runReset .ep) { case37 5 1 with mode := .standby }).slot 37).ordered = 0 ∧
    answer .ep (after (.runReset .ep) active) = some ⟨.wrongState, .empty⟩ := by
  decide

/-- R180: power-on, and RESET_N low, clear what was there. -/
theorem test_power_and_reset_pin :
    (after .powerOn (case37 5 1)).mode = .cold ∧ (after (.resetN .low) (case37 5 1)).resetN = .low ∧
      ((after (.resetN .low) (case37 5 1)).slot 37).ordered = 0 := by
  decide

/-- R174, R95, R61, R182: one field of each report. -/
theorem test_other_reads :
    (match answer .tp (after (.readStatus .tp) active) with
      | some ⟨.ok, .status r⟩ => decide (r.mode = .active ∧ r.threshold = 1)
      | _ => false) = true ∧
    (match answer .tp (after (.readRoute .tp 4) (case7 .loaded none)) with
      | some ⟨.ok, .route r⟩ => decide (r.older = some 8 ∧ r.cfg.stops = [21, 22, 23, 24, 25, 26])
      | _ => false) = true ∧
    (match answer .lp (after (.readQueue .lp 1) case6) with
      | some ⟨.ok, .queue r⟩ => decide (r.count = 7 ∧ r.lines.map (·.rank) = [1, 2, 1, 2, 2, 1])
      | _ => false) = true ∧
    (match answer .ep (after (.readCounters .ep) (after (.advance .lp (some .a) 9 7 false) (case37 1100 2))) with
      | some ⟨.ok, .counters r⟩ => decide (r.short = 1)
      | _ => false) = true := by
  decide

end Sys2Proof.Tests
end

