-- ==== Sys2Proof/Tests/Lawful.lean ====
section
/-!
SUPPORT. A state at work that keeps every law of the device, with a command waiting: the witness for the statements about every
lawful state.
-/

namespace Sys2Proof.Tests

open Sys2Proof Sys2Proof.Machine

/-- A KANBAN slot with one container on a train and one in the queue. -/
def slot3 : Slot := { cfg := { status := .active, mc := 2, rop := 1, start := .full }, ordered := 2 }

/-- A SEQUENCED slot with a rack of unit 8 on the same train. -/
def slot5 : Slot := { cfg := { kind := .sequenced, status := .active, group := 1 }, marks := some ⟨8, 7⟩ }

/-- The train's two lines. -/
def lines3 : List ManifestLine :=
  [⟨.bin .kanban, 3, 0, .s, 0, 1, 1, 0, .planned⟩, ⟨.rack 8 8 1, 5, 0, .s, 0, 1, 1, 0, .planned⟩]

/-- Route 0 with the train on its way. -/
def route0 : Route :=
  { cfg := { timing := { enabled := true } }
    c := 599, due := some .wrap
    buffers := ⟨{ state := .onRoute, load := ⟨2, 0, 0⟩, lines := lines3, stops := some [0] }, {}⟩ }

/-- The part at work: an advance waits. -/
def busy : State :=
  { active with
    pending := [.advance .lp (some .a) 8 1 false]
    slots := (active.slots.set 3 slot3).set 5 slot5
    routes := active.routes.set 0 route0
    seqs := ⟨{ units := [⟨8, 1, false⟩, ⟨9, 0, true⟩], last := some 9 }, {}⟩
    demand := { lines := [⟨3, 1, .kanban, 0, 0, true⟩] } }

theorem busy_slot (i : SlotId) : busy.slot i = if i = 5 then slot5 else if i = 3 then slot3 else {} := by
  revert i; decide +kernel

theorem busy_route (r : RouteId) : busy.route r = if r = 0 then route0 else {} := by
  revert r; decide +kernel

theorem busy_buffer (r : RouteId) (h : Half) :
    busy.buffer r h = if r = 0 ∧ h = .lower then route0.buffers.lower else {} := by
  unfold State.buffer; rw [busy_route]; cases h <;> by_cases hr : r = 0 <;> simp [hr] <;> rfl

/-- Something that holds of the three records holds of every slot. -/
theorem busy_all {p : Slot → Prop} (h3 : p slot3) (h5 : p slot5) (h : p {}) (i : SlotId) : p (busy.slot i) := by
  rw [busy_slot]; split
  · exact h5
  · split
    · exact h3
    · exact h

/-- Something that holds of the two route states holds of every route. -/
theorem busy_routes {p : Route → Prop} (h0 : p route0) (h : p {}) (r : RouteId) : p (busy.route r) := by
  rw [busy_route]; split
  · exact h0
  · exact h

theorem default_timing_inRange : ({} : RouteTiming).InRange := by constructor <;> decide
theorem default_route_inRange : ({} : RouteConfig).InRange := by constructor <;> first | exact default_timing_inRange | decide
theorem default_slot_inRange : ({} : SlotConfig).InRange := by constructor <;> decide
theorem default_window_inRange : ({} : Window).InRange := ⟨by decide, fun _ h => nomatch h⟩
theorem default_usage_inRange : ({} : LineUsage).InRange := by constructor <;> decide +kernel

theorem busy_tables : busy.TablesLaw where
  stagedSlots i := by
    have : busy.image.slots[i] = ({} : SlotConfig) := by simp [busy, active, State.reset]
    rw [this]; exact default_slot_inRange
  stagedUsage l := by cases l <;> exact default_usage_inRange
  stagedRoutes r := by
    have : busy.image.routes[r] = ({} : RouteConfig) := by simp [busy, active, State.reset]
    rw [this]; exact default_route_inRange
  stagedWindows k := by
    have : busy.image.windows[k] = ({} : Window) := by simp [busy, active, State.reset]
    rw [this]; exact default_window_inRange
  stagedAge := by decide
  stagedHigh := by decide
  slots := busy_all (p := fun x => x.cfg.InRange) (by constructor <;> decide) (by constructor <;> decide) default_slot_inRange
  bounds := busy_all (p := fun x => x.cfg.kind = .kanban → x.cfg.Bounded)
    (fun _ => ⟨by decide, by decide, fun _ h => nomatch h⟩) (fun h => nomatch h)
    (fun _ => ⟨by decide, by decide, fun n h => by cases h; decide⟩)
  usage l := by cases l <;> exact default_usage_inRange
  routes := busy_routes (p := fun x => x.cfg.InRange)
    (by constructor <;> first | (constructor <;> decide) | decide) default_route_inRange
  coverage k := by
    have : busy.coverage[k] = ({} : Window) := by simp [busy, active, State.reset]
    rw [this]; exact default_window_inRange
  diverts k := by
    have : busy.diverts[k] = ({} : Window) := by simp [busy, active, State.reset]
    rw [this]; exact default_window_inRange
  age := by decide
  high := by decide

theorem busy_ordered : busy.OrderedLaw where
  count := by decide +kernel
  bound := by decide +kernel
  sequenced := by decide +kernel
  blocked := by decide +kernel

theorem lines3_law : ∀ x ∈ lines3, x.Law := by
  intro x hx
  simp only [lines3, List.mem_cons, List.not_mem_nil, or_false] at hx
  rcases hx with rfl | rfl
  · exact ⟨by decide, by decide, by decide, by decide, by decide, by decide, fun a b n h => (nomatch h)⟩
  · exact ⟨by decide, by decide, by decide, by decide, by decide, by decide, fun a b n h => by cases h; decide⟩

theorem busy_manifest (r : RouteId) (h : Half) : (busy.buffer r h).ManifestLaw := by
  rw [busy_buffer]
  split
  · exact ⟨by decide, by decide, lines3_law, by decide, fun _ => rfl, by decide, by decide, by decide, by decide,
      fun h => absurd rfl h⟩
  · exact ⟨by decide, by decide, fun x hx => (List.not_mem_nil hx).elim, by decide, by decide, by decide, by decide, by decide,
      by decide, fun _ x hx => (List.not_mem_nil hx).elim⟩

theorem busy_rack : busy.RackLaw where
  one := by decide +kernel
  marks i m h := by
    rw [busy_slot] at h
    split at h
    next hi =>
      subst hi; cases h
      exact .inr ⟨⟨.rack 8 8 1, 5, 0, .s, 0, 1, 1, 0, .planned⟩, by decide +kernel, 8, 1, rfl, by decide⟩
    next => split at h <;> cases h

/-- The witness for every statement about a lawful state and its step: TablesAndTimingStayInRange,
PortsNoticesAndCountersStayLawful, SequencesAndColdStayLawful, EstimatesAndChecksStayLawful, DemandStaysAccountedFor,
TrainsAndManifestsStayLawful and RacksStayOneToASlot. -/
theorem witness_lawful_state : busy.Lawful where
  tables := busy_tables
  estimate := busy_all (by constructor <;> decide) (by constructor <;> decide) (by constructor <;> decide)
  ordered := busy_ordered
  demand := by
    constructor
    · decide
    · decide
    · intro x hx; simp only [busy, List.mem_singleton] at hx; subst hx; decide
    · intro x hx; simp only [busy, List.mem_singleton] at hx; subst hx; decide
  train := busy_routes
    { oneTrain := by decide, atRest := by decide, pointer := by decide
      onLoop := fun h => by
        cases h
        · exact fun _ => ⟨[0], rfl, by decide, by decide, by decide⟩
        · exact fun h => absurd h (by decide)
      notLeft := fun h => by cases h <;> decide }
    { oneTrain := by decide, atRest := by decide, pointer := by decide
      onLoop := fun h => by cases h <;> exact fun h => absurd h (by decide)
      notLeft := fun h => by cases h <;> decide }
  manifest := busy_manifest
  rack := busy_rack
  timing := busy_routes (by constructor <;> first | decide | (intro t h; cases h)) (by constructor <;> first | decide | (intro t h; cases h))
  notices p := by cases p <;> constructor <;> decide
  sequence l := by
    cases l
    · refine ⟨by decide, by decide, fun u h => ?_⟩
      have : u = ⟨9, 0, true⟩ := by simpa [busy, State.seq, PerLine.get] using h.symm
      subst this; rfl
    · exact ⟨by decide, by decide, fun u h => nomatch h⟩
  cold := ⟨(nomatch ·), (nomatch ·), (nomatch ·), fun h => absurd rfl h⟩
  checker := busy_all (by constructor <;> decide) (by constructor <;> decide) (by constructor <;> decide)
  ports p := by cases p <;> exact ⟨fun c n got h => (nomatch h), fun _ => ⟨rfl, rfl⟩⟩
  counters :=
    { slots := busy_all (p := fun x => x.shortfalls ≤ 65535 ∧ x.overfills ≤ 65535 ∧ x.resyncs ≤ 65535)
        (by decide) (by decide) (by decide)
      routes := busy_routes (p := fun x => x.lateCount ≤ 65535 ∧ x.overdueCount ≤ 65535 ∧ x.heldCount ≤ 65535 ∧
        x.missedCount ≤ 65535 ∧ x.skippedCount ≤ 65535 ∧ x.mismatches ≤ 65535) (by decide) (by decide)
      demand := by decide
      ports := fun p => by cases p <;> decide }

/-- And that state steps, its train live before and after. -/
theorem witness_lawful_step :
    ∃ t, step busy = .next t ∧ (busy.buffer 0 .lower).state ≠ .free ∧ (t.buffer 0 .lower).state ≠ .free :=
  ⟨_, rfl, by decide +kernel, by decide +kernel⟩

end Sys2Proof.Tests
end

