-- ==== Sys2Proof/Tests/Witnesses.lean ====
section
/-!
SUPPORT. Witnesses: for every statement with hypotheses a concrete state and operands that meet them, clause by clause, at the
ends of the ranges its clauses name. Tests/Lawful.lean has the witness of the statements about every lawful state.
-/

namespace Sys2Proof.Tests

open Sys2Proof Sys2Proof.Machine

/-! ## The machine -/

theorem witness_StepTakesTheFrontCommand : State.reset.pending = [] := rfl

/-- Each port with the request code next to one it may send. -/
theorem witness_PortsKeepToTheirRights :
    State.reset.resetN = .high ∧ requestIn? (.depart .lp 0) = some (.lp, .depart) ∧ permitted .lp .depart = false ∧
    requestIn? (.beginPick .tp 0 0) = some (.tp, .beginPick) ∧ permitted .tp .beginPick = false ∧
    requestIn? (.readStopLines .sp 0) = some (.sp, .readStopLines) ∧ permitted .sp .readStopLines = false ∧
    requestIn? (.readPickList .ep 0 0 0) = some (.ep, .readPickList) ∧ permitted .ep .readPickList = false ∧
    requestIn? (.readCounters .sp) = some (.sp, .readCounters) ∧ permitted .sp .readCounters = false := by
  decide

theorem witness_PowerAndResetPinGiveThePowerOnState :
    active.resetN ≠ .low ∧ active.resetN = .high ∧ { active with resetN := .low }.resetN = .low ∧
      (.decisecondEnd : Instr) ≠ .powerOn := by
  decide

/-! ## Clocks and routes -/

theorem witness_RunEdgeMovesTheGate :
    (active.clock .a).run = .low ∧ (active.clock .a).run ≠ .high ∧ (active.clock .a).mode = .follow ∧
    (∀ m : GateMode, ∀ f, ∃ s : State, (s.clock .b).run ≠ .high ∧ (s.clock .b).mode = m ∧ (s.clock .b).fired = f) :=
  ⟨by decide, by decide, by decide, fun m f =>
    ⟨{ active with clocks := ⟨{}, { mode := m, fired := f }⟩ }, fun h => (nomatch h), rfl, rfl⟩⟩

theorem witness_SetGateWritesModeLatchAndGate : active.resetN = .high := rfl

theorem witness_DecisecondAdvancesTheClocks :
    active.resetN = .high ∧ active.mode = .active ∧ State.reset.mode ≠ .active := by decide

/-- A count one below the period's last, at it, on a closed gate, and on a disabled route; the points at the count reached. -/
theorem witness_DecisecondCountsTheRoutes :
    let s := case5 1198 none
    s.resetN = .high ∧ s.mode = .active ∧ (∀ r, (s.route r).due = none) ∧ (s.route 2).cfg.timing.enabled = true ∧
      (s.route 2).c + 1 < (s.route 2).cfg.timing.period ∧
      (let s := case5 1199 none; (∀ r, (s.route r).due = none) ∧ (s.route 2).cfg.timing.period ≤ (s.route 2).c + 1) ∧
      (s.route 0).cfg.timing.enabled = false ∧ (s.clock .a).isOpen = false ∧
      { s with clocks := ⟨{ isOpen := true }, {}⟩ }.ticks (s.route 2).cfg.timing.source = true := by
  decide +kernel

theorem witness_RouteEventsAreTakenWhenDue :
    let s := case5 0 (some .build)
    s.resetN = .high ∧ s.mode = .active ∧ (s.route 2).due ≠ some .wrap ∧ (s.route 2).due ≠ some .departure ∧
      (s.route 2).due ≠ some .skipped ∧ ((case5 0 none).route 2).due ≠ some .build ∧
      ∀ k, k ≠ 2 → (s.route k).due = none := by
  decide +kernel

/-- A wrap of an enabled route with a point at 0, one of a route that pending timing disables, and a skipped point. -/
theorem witness_WrapAndSkippedPointMoveOneRoute :
    let s := case5 1199 (some .wrap)
    let off := s.modRoute 2 fun x => { x with next := some { enabled := false } }
    let zero := s.modRoute 2 fun x => { x with next := some { enabled := true, buildAt := 0, departAt := 65535 } }
    s.resetN = .high ∧ (s.route 2).due = some .wrap ∧ ((off.route 2).next.getD {}).enabled = false ∧
      ((zero.route 2).next.getD {}).enabled = true ∧ 0 < ((zero.route 2).next.getD {}).period ∧
      ((case5 0 (some .skipped)).route 2).due = some .skipped := by
  decide

/-- No live manifest; one not departed, at its first point and at a later one; one ON_ROUTE at its second point; and two, the older
ON_ROUTE and overdue, the newer late. -/
theorem witness_DeparturePointJudgesTheManifest :
    let s (st : BufferState) (seen : Nat) (new : BufferState) := (case5 300 (some .departure)).modRoute 2 fun x => { x with
      buffers := ⟨{ state := st, seen := seen, lap := 4 }, { state := new, lap := 5 }⟩ }
    (s .free 0 .free).resetN = .high ∧ ((s .free 0 .free).route 2).due = some .departure ∧
      (after (.departurePoint 2) (s .free 0 .free)).queues = active.queues ∧
      told .sp (after (.departurePoint 2) (s .offered 0 .free)) = [.late 2 4 .offered] ∧
      told .sp (after (.departurePoint 2) (s .offered 1 .free)) = [] ∧
      told .tp (after (.departurePoint 2) (s .onRoute 0 .free)) = [] ∧
      told .ep (after (.departurePoint 2) (s .onRoute 1 .picking)) = [.overdue 2 4 0, .late 2 5 .picking] := by
  decide

theorem witness_RouteFlagsAreWrittenAlone :
    active.resetN = .high ∧ active.mode ≠ .cold ∧ State.reset.resetN = .high ∧ State.reset.mode = .cold ∧ 5 < 6 := by decide

/-! ## Ports -/

/-- A selected port in each receive state the clauses name, and an unselected one. -/
def portAt (rx : Receive) : State := active.modPort .tp fun u => { u with selected := true, rx := rx }

theorem witness_TransactionsStartAndEnd :
    active.resetN = .high ∧ (active.port .tp).selected = false ∧ ((portAt (.length 1)).port .tp).selected = true ∧
      ((portAt (.length 1)).port .tp).rx = .length 1 ∧ ((portAt (.payload 1 2 [])).port .tp).rx = .payload 1 2 [] ∧
      ((portAt .discard).port .tp).rx = .discard := by
  decide

/-- The ends of the declared lengths: 1, 60 and 61; and a payload two bytes from its end. -/
theorem witness_BytesMoveTheReceiveState :
    (portAt .code).resetN = .high ∧ ((portAt .code).port .tp).selected = true ∧ ((portAt .code).port .tp).rx = .code ∧
      ((portAt (.length 7)).port .tp).rx = .length 7 ∧ (1 : Byte).toNat = 1 ∧ (60 : Byte).toNat = 60 ∧ 60 < (61 : Byte).toNat ∧
      ((portAt (.payload 7 2 [])).port .tp).rx = .payload 7 2 [] ∧ ([] : List Byte).length + 1 < 2 ∧
      ((portAt (.response ⟨.ok, .empty⟩ 0)).port .tp).rx = .response ⟨.ok, .empty⟩ 0 ∧
      ((portAt .discard).port .tp).rx = .discard ∧ (active.port .tp).selected = false := by
  decide

/-- A request without fields and its wrong payload, the drop, requests that the port may not send, and the codes beside the known
ones. -/
theorem witness_CompleteFrameIsItsRequest :
    (portAt .code).resetN = .high ∧ ((portAt (.length 1)).port .tp).selected = true ∧
      requestIn? (.readStatus .tp) = some (.tp, .readStatus) ∧ ((portAt (.length 1)).port .tp).rx = .length (requestCode .readStatus) ∧
      permitted .tp .readStatus = true ∧
      ((portAt (.payload 1 1 [])).port .tp).rx = .payload (requestCode .readStatus) 1 [] ∧
      ((portAt (.payload 0x22 7 [0, 1, 2, 3, 4, 5])).port .tp).rx = .payload 0x22 7 [0, 1, 2, 3, 4, 5] ∧
      permitted .tp .start = false ∧ ((portAt (.length 0x4F)).port .tp).rx = .length (requestCode .start) ∧
      permitted .tp .setHold = false ∧ ((portAt (.payload 0x49 2 [3])).port .tp).rx = .payload (requestCode .setHold) 2 [3] ∧
      (∀ c ∈ [0x00, 0x08, 0x0F, 0x13, 0x1F, 0x25, 0x2F, 0x35, 0x3F, 0x53, 0xFF], knownCode c = false) ∧
      ((portAt (.length 0x53)).port .tp).rx = .length 0x53 ∧
      ((portAt (.payload 0x53 1 [])).port .tp).rx = .payload 0x53 1 [] := by
  decide

/-- A request with fields on a port that may send it: its whole payload received but for the last byte, whatever its length; and a
payload of 61 bytes, one more than any length. -/
theorem witness_CompleteFrameIsItsRequest_fields :
    permitted .tp .readSlot = true ∧ 1 ≤ lengthOf .readSlot .plain ∧
      (let got : List Byte := List.replicate (lengthOf .readSlot .plain - 1) 0
       ((portAt (.payload 0x04 (got.length + 1) got)).port .tp).rx = .payload (requestCode .readSlot) (got.length + 1) got ∧
       got.length + 1 = lengthOf .readSlot .plain) ∧
      (List.replicate 60 (0 : Byte)).length + 1 ≠ lengthOf .readSlot .plain := by
  have h := lengthOf_range (q := .readSlot) (by decide) .plain
  refine ⟨by decide, h.1, ⟨?_, ?_⟩, ?_⟩
  · rfl
  · simp only [List.length_replicate]; omega
  · simp only [List.length_replicate]; omega

/-! ## Notices -/

theorem witness_NoticeCopiesArriveByMode :
    let q (m : QueueMode) (mark : Bool) (n : Nat) : NoticeQueue :=
      { mode := m, marker := mark, items := List.replicate n ⟨.pickReady 0 0 1, 0⟩ }
    (q .halt false 15).items.length < 16 ∧ 16 ≤ (q .halt false 16).items.length ∧ (q .halt true 0).marker = true ∧
      (q .stream true 15).items.length < 16 ∧ 16 ≤ (q .stream false 16).items.length ∧ active.resetN = .high := by
  decide

theorem witness_QueueRequestsServeTheAskingPort :
    active.resetN = .high ∧ (1 ≤ 1 ∧ 1 ≤ 8) ∧ (1 ≤ 8 ∧ 8 ≤ 8) ∧ (1 ≤ 4 ∧ 4 ≤ 4) ∧ 8 < 9 ∧ 4 < 5 ∧ (0 = 0 ∨ 8 < 0) := by decide

/-! ## Reads -/

theorem witness_StatusAndCountersAreReported : State.reset.resetN = .high := rfl

theorem witness_SlotQueueAndRouteAreReported :
    active.resetN = .high ∧ (active.slot 191).cfg.kind = .kanban ∧
      ((case80 [] 5 ⟨5, 5⟩).slot 80).cfg.kind = .sequenced ∧ 191 < 192 ∧ 127 ≤ 127 ∧ 127 < 128 ∧ 5 < 6 ∧
      ((case7 .loaded none).buffer 4 .lower).state ≠ .free ∧ ((case7 .loaded none).buffer 4 .upper).state = .free ∧
      ((active.buffer 5 .lower).state = .free ∧ (active.buffer 5 .upper).state = .free) := by
  decide

/-- Two live manifests of one lap. -/
def twoLive (older : Half) : State :=
  (case7 .loaded none).modRoute 4 fun x => { x with buffers := ⟨x.buffers.lower, x.buffers.lower⟩, older := older }

theorem witness_RouteAndLapNameTheManifest :
    (twoLive .upper).manifest 4 15 = some .upper ∧ (twoLive .lower).manifest 4 15 = some .lower ∧
      (twoLive .lower).manifest 4 16 = none ∧ (BufferState.loaded ≠ .free) ∧
      (twoLive .upper).manifestIn 4 .loaded = some .upper ∧ (twoLive .upper).manifestIn 4 .picking = none := by
  decide

theorem witness_ManifestsAreReported :
    let s := case7 .loaded none
    s.resetN = .high ∧ 31 ≤ 31 ∧ s.manifest 4 15 = some .lower ∧ (case7 .onRoute none).manifestIn 4 .onRoute = some .lower ∧
      (5 < 6 ∨ 31 < 0) ∧ (5 < 0 ∨ 31 < 32) ∧ s.manifest 4 16 = none ∧ 31 < 32 ∧ s.manifestIn 4 .onRoute = none := by
  decide

/-! ## The line controller's requests -/

theorem witness_SequenceNumbersCompareModulo :
    ((0 : SeqNo).toNat + 65536 - (32768 : SeqNo).toNat) % 65536 = 32768 ∧ seqAfter 32767 0 = true ∧
      seqAfter 0 65535 = true := by
  decide

/-- An unanchored line, an anchored one with 63 units, one with 64, and variants 31 and 32. -/
theorem witness_AnnounceAppendsInOrder :
    let s (n : Nat) : State := { active with
      seqs := ⟨{ units := unitsFrom 1 (List.replicate n 1), last := some (BitVec.ofNat 16 n) }, {}⟩ }
    active.resetN = .high ∧ active.mode = .active ∧ (31 : Variant).val = 31 ∧ (active.seq .a).last = none ∧
      ((s 63).seq .a).units.length < 64 ∧ ((s 63).seq .a).last = some (64 - 1) ∧ State.reset.mode ≠ .active ∧ 31 < 32 ∧
      64 ≤ ((s 64).seq .a).units.length ∧ ((s 63).seq .a).last = some 63 ∧ (65 : SeqNo) ≠ 63 + 1 := by
  decide

theorem witness_AdvanceSettlesTheList :
    let s := case80 (unitsFrom 1003 [2, 5, 4, 2]) 1006 ⟨1010, 1004⟩
    s.resetN = .high ∧ s.mode = .active ∧ 31 ≤ 31 ∧ (s.seq .a).units.findIdx? (·.seq == 1003) = some 0 ∧
      (s.seq .a).units.findIdx? (·.seq == 1006) = some 3 ∧ (∀ u ∈ (s.seq .a).units, u.seq ≠ 1007) ∧
      State.reset.mode ≠ .active ∧ 31 < 32 := by
  decide

/-- A draw that empties the slot exactly, one past it, one short of it, and no draw; and an armed line with no mark met. -/
theorem witness_AdvanceDrawsOnTheEstimates :
    let s := case37 2050 2
    s.resetN = .high ∧ s.mode = .active ∧ ¬s.takesPlan .a 9 true ∧ ¬case9.takesPlan .a 5121 false ∧ s.draw 37 7 = 2050 ∧
      (7 : Variant) ≠ 0 ∧ (s.slot 37).cfg.kind = .kanban ∧ (s.slot 37).cfg.status ≠ .inactive ∧ (s.slot 37).cfg.line = .a ∧
      (s.slot 37).oh ≤ 2050 ∧ ((case37 2049 2).slot 37).oh < 2050 ∧ 2050 < ((case37 2051 2).slot 37).oh ∧ s.draw 37 12 = 0 := by
  simp only [State.takesPlan_iff]; decide

theorem cfg37_inRange : cfg37.InRange := by constructor <;> decide
theorem cfg37_bounded : cfg37.Bounded := ⟨by decide, by decide, fun _ h => (nomatch h)⟩

/-- A draw of OH, of less and of none, with SHORT clear and set; a SEQUENCED slot; a KANBAN slot at the reorder point and one
millipart below it, with an OPEN line, with 111 lines and with 112. -/
theorem witness_DrawnSlotReportsAndOrders :
    (2050 ≠ 0 ∧ ((case37 2050 0).slot 37).oh ≤ 2050 ∧ ((case37 2050 0).slot 37).short = false ∧
      2050 < ((case37 2051 0).slot 37).oh ∧ ((withSlot active 37 { cfg := cfg37, short := true }).slot 37).short = true) ∧
    ((case80 [] 5 ⟨5, 5⟩).slot 80).cfg.kind = .sequenced ∧
    ((case37 50000 0).slot 37).cfg.kind = .kanban ∧ ((case37 50000 0).slot 37).cfg.InRange ∧
    ((case37 50000 0).slot 37).cfg.Bounded ∧
    ((case37 50000 0).slot 37).cfg.rop * 1000 ≤ ((case37 50000 0).slot 37).oh ∧
    ((case37 49999 0).slot 37).oh < ((case37 49999 0).slot 37).cfg.rop * 1000 ∧
    ((case37 49999 0).slot 37).cfg.status = .active ∧ ((case37 49999 0).slot 37).withheld = false ∧
    ({ case37 9999 1 with demand := { lines := [⟨37, 1, .topup, 0, 0, false⟩] } }.openLine 37).isSome = true ∧
    (case37 49999 0).openLine 37 = none ∧ (crowd 111).length < 112 ∧ 112 ≤ (crowd 112).length := by
  refine ⟨by decide, by decide, by decide, cfg37_inRange, cfg37_bounded, by decide, by decide, by decide, by decide, by decide,
    by decide, by decide, by decide⟩

/-- The head, a unit behind it and a unit outside the list, at a SEQUENCED slot they qualify for, beside KANBAN slots of the line. -/
theorem witness_UnsuppliedUnitsAreReportedStarved :
    let s : State := case80 (unitsFrom 1006 [2, 2]) 1007 ⟨1010, 1004⟩
    s.resetN = .high ∧ s.mode = .active ∧ ¬s.takesPlan .a 1006 true ∧ ¬s.takesPlan .a 1007 false ∧
      ¬s.takesPlan .a 2000 false ∧ (s.slot 80).cfg.kind = .sequenced ∧ (s.slot 0).cfg.kind = .kanban ∧
      0 < (s.usage.get .a).quantity 2 (s.slot 80).cfg.group ∧
      told .sp (after (.advance .lp (some .a) 1006 2 true) s) = [.seqStarved 80 1006 .notDelivered] ∧
      told .sp (after (.advance .lp (some .a) 2000 2 false) s) = [.seqStarved 80 2000 .unannounced] := by
  refine ⟨by decide, by decide, by rw [State.takesPlan_iff]; decide, by rw [State.takesPlan_iff]; decide,
    by rw [State.takesPlan_iff]; decide, by decide, by decide, by decide, by decide, by decide⟩

/-- A unit pulled past an orphan of slot 80, by a unit of the plan and by a gap. -/
theorem witness_PulledUnitsAreReportedWithTheirOrphans :
    let s : State := case80 (unitsFrom 1004 [2, 2]) 1005 ⟨1010, 1004⟩
    s.resetN = .high ∧ s.mode = .active ∧ ¬s.takesPlan .a 1005 false ∧ 1 ≤ 1 ∧
      (s.seq .a).units.findIdx? (·.seq == 1005) = some 1 ∧ (∀ g, (s.usage.get .a).quantity 0 g = 0) ∧
      told .sp (after (.advance .lp (some .a) 1005 2 false) s) =
        [.seqBreak .a 1005 1 1, .seqStarved 80 1005 .notDelivered] := by
  refine ⟨by decide, by decide, by rw [State.takesPlan_iff]; decide, by decide, by decide, by decide, by decide⟩

/-- The advance's own mark, and a marked unit pulled; and no mark. -/
theorem witness_MarkedAdvanceTakesTheArmedPlan :
    let units := (unitsFrom 1003 [2, 5]).map fun u => { u with mark := true }
    case9.resetN = .high ∧ case9.mode = .active ∧ case9.applyState = .armed .a ∧ case9.takesPlan .a 5121 true ∧
      { case9 with seqs := ⟨{ units := units, last := some 1004 }, {}⟩ }.takesPlan .a 1004 false ∧
      ¬case9.takesPlan .a 5121 false := by
  simp only [State.takesPlan_iff]; decide

theorem witness_SnapshotChecksEachBoundSlot :
    let s := case8 .resync (some .under) 3 none
    s.resetN = .high ∧ s.mode = .active ∧ 1 ≤ 1 ∧ (s.slot 37).cfg.sensor = some 12 ∧ (s.slot 37).disCount = 3 ∧
      (s.slot 37).compare .uncovered = some .under ∧ (s.slot 37).compare .covered = none ∧ 1 < 2 ∧
      State.reset.mode ≠ .active ∧ ((case8 .withhold none 0 none).slot 37).cfg.policy = .withhold ∧
      ((case8 .report none 0 none).slot 37).cfg.policy = .report := by
  decide +kernel

/-! ## Handing lines back -/

/-- A slot made SEQUENCED, one made INACTIVE, one above MC by as much as returns and by less; a merge, 127 lines and 128; and a line
created for a slot that maps to no route, which brings the count to W. -/
theorem witness_ReturnedLinesGoBackByTheirKind :
    let n := 2
    1 ≤ n ∧ (case37 0 2).demand.returnsDropped ≤ 65535 ∧ ((case80 [] 5 ⟨5, 5⟩).slot 80).cfg.kind = .sequenced ∧
      ((active.slot 0).cfg.kind = .kanban ∧ (active.slot 0).cfg.status = .inactive) ∧
      ((case37 0 4).slot 37).cfg.status ≠ .inactive ∧ min n (((case37 0 4).slot 37).ordered - 3) < n ∧
      n ≤ min n (((case37 0 5).slot 37).ordered - 3) ∧ (case37 0 2).openLine 37 = none ∧
      ((crowd 112) ++ (crowd 15)).length < 128 ∧ 128 ≤ ((crowd 112) ++ (crowd 16)).length ∧
      (let s := case37 0 2
       let high := { s with diverts := State.reset.diverts, coverage := State.reset.coverage, demand := { s.demand with watermark := 1 } }
       high.mapSlot 37 = none ∧ high.demand.lines.length + 1 = high.demand.watermark ∧ high.demand.highArmed = true ∧
       high.openLine 37 = none) := by
  decide +kernel

/-! ## The train's requests -/

theorem witness_DepartSendsTheOldestLoadedTrain :
    let s := case7 .loaded none
    s.resetN = .high ∧ s.mode ≠ .cold ∧ s.manifestIn 4 .onRoute = none ∧ s.manifestIn 4 .loaded = some .lower ∧
      State.reset.mode = .cold ∧ 5 < 6 ∧ (case7 .onRoute none).manifestIn 4 .onRoute ≠ none ∧
      ((case7 .onRoute none).route 4).current = none ∧ (case7 .picking none).manifestIn 4 .loaded = none := by
  decide

/-- A stop ahead, one behind, one unknown. -/
theorem witness_ArriveReturnsTheStopsLeft :
    let s := case7 .onRoute (some 2)
    s.resetN = .high ∧ s.mode ≠ .cold ∧ s.manifestIn 4 .onRoute = some .lower ∧
      findStop [21, 22, 23, 24, 25, 26] 3 24 = .found 3 ∧ findStop [21, 22, 23, 24, 25, 26] 3 26 = .found 5 ∧
      findStop [21, 22, 23, 24, 25, 26] 3 23 = .behind ∧ findStop [21, 22, 23, 24, 25, 26] 3 27 = .unknown := by
  decide

/-- A bin hit, a rack hit by its qualifier, and a miss. -/
theorem witness_DropIsMatchedAtTheCurrentStop :
    let s := case7 .onRoute (some 1)
    s.resetN = .high ∧ s.mode ≠ .cold ∧ s.manifestIn 4 .onRoute = some .lower ∧ (s.route 4).current = some 1 ∧
      (dropHit .first (s.route 4).cfg.mask ⟨120, 3400⟩ (openLines (s.buffer 4 .lower).lines 1)).isSome = true ∧
      dropHit .any (s.route 4).cfg.mask ⟨120, 3401⟩ (openLines (s.buffer 4 .lower).lines 1) = none := by
  decide

theorem witness_DeliveryReachesItsSlot :
    let y : ManifestLine := ⟨.bin .kanban, 37, 0, .m, 0, 1, 1, 0, .planned⟩
    y.load = .bin .kanban ∧ ((case37 0 1).slot y.slot).cfg.kind = .kanban ∧ ((case37 0 1).slot 37).cfg.status = .active ∧
      ((case37 0 1).slot 37).withheld = false ∧ ((case80 [] 5 ⟨9, 5⟩).slot 80).marks = some ⟨9, 5⟩ ∧
      ((case80 [] 5 ⟨9, 5⟩).slot 80).cfg.kind = .sequenced ∧ (active.slot 80).marks = none := by
  decide

theorem witness_LapEndReturnsAndFrees :
    let s := case7 .onRoute (some 4)
    s.resetN = .high ∧ s.mode ≠ .cold ∧ s.manifestIn 4 .onRoute = some .lower := by
  decide

/-! ## Building -/

theorem witness_BuildIsHeldOrMissed :
    let held := case6.modRoute 2 fun x => { x with hold := true }
    let full := case6.modRoute 2 fun x => { x with buffers := ⟨x.buffers.lower, x.buffers.lower⟩ }
    held.resetN = .high ∧ (held.route 2).due = some .build ∧ (held.route 2).hold = true ∧ (full.route 2).due = some .build ∧
      (full.route 2).hold = false ∧ (∀ h ∈ [Half.lower, Half.upper], (full.buffer 2 h).state ≠ .free) := by
  decide

/-- For both statements about a build that is made: into the upper buffer, and into the lower; a candidate of the queue (the queue's
law is the next witness), and an eligible SEQUENCED slot with room of its class. -/
theorem witness_BuildOffersWhatFits :
    let both := case6.modRoute 2 fun x => { x with buffers := ⟨{}, {}⟩ }
    case6.resetN = .high ∧ (case6.route 2).due = some .build ∧ (case6.route 2).hold = false ∧
      (case6.buffer 2 .upper).state = .free ∧ (case6.buffer 2 .lower).state ≠ .free ∧
      (both.route 2).due = some .build ∧ (both.buffer 2 .lower).state = .free ∧
      (∃ d ∈ case6.demand.lines, case6.candidate 2 d = true) ∧
      (let rack : Slot := { cfg := { kind := .sequenced, status := .active, location := 0x10 }, marks := some ⟨4, 4⟩ }
       let s := withSlot { case6 with
         seqs := ⟨{ units := [⟨5, 1, false⟩], last := some 5 }, {}⟩
         usage := ⟨{ q := Vector.replicate 32 (Vector.replicate 16 1) }, {}⟩ } 60 rack
       s.mapSlot 60 = some (2, 4) ∧ s.eligibleRack 60 = some ⟨5, 5, 1⟩ ∧ 0 < (s.route 2).cfg.caps.get (s.slot 60).cfg.size ∧
       s.hasRackOut 60 = false) := by
  decide

/-- Unanchored marks; a slot eligible by its beyond units, one by its lead, and one with neither: 3 beyond units of K = 4, and a lead
of L_min = 2. -/
theorem witness_BuildOffersWhatFits_racks :
    let s (first : SeqNo) (variants : List Variant) (m : Marks) := case80 (unitsFrom first variants) 1012 m
    (active.slot 80).marks = none ∧
      ((s 1000 [2, 4, 5, 2, 5] ⟨999, 999⟩).slot 80).marks = some ⟨999, 999⟩ ∧
      ((s 1000 [2, 4, 5, 2, 5] ⟨999, 999⟩).slot 80).cfg.rackSize = 4 ∧
      ((s 1000 [2, 4, 5, 2, 5] ⟨999, 999⟩).slot 80).cfg.minLead = 2 ∧
      ((s 1000 [2, 4, 5, 2, 5] ⟨999, 999⟩).beyond 80 ⟨999, 999⟩).length = 4 ∧
      ((s 1010 [2, 4, 2] ⟨1010, 1010⟩).beyond 80 ⟨1010, 1010⟩).length = 1 ∧
      (s 1010 [2, 4, 2] ⟨1010, 1010⟩).lead 80 ⟨1010, 1010⟩ = 1 ∧
      ((s 1008 [2, 5, 2, 2, 2] ⟨1009, 1009⟩).beyond 80 ⟨1009, 1009⟩).length = 3 ∧
      (s 1008 [2, 5, 2, 2, 2] ⟨1009, 1009⟩).lead 80 ⟨1009, 1009⟩ = 2 := by
  decide

theorem witness_BuildKeepsEveryContainer : case6.demand.Law :=
  ⟨by decide, by decide, by decide, by decide⟩

/-! ## The supermarket's requests -/

theorem witness_PickingMovesTheManifest :
    let s := case7 .offered none
    s.resetN = .high ∧ s.mode ≠ .cold ∧ s.manifest 4 15 = some .lower ∧ (s.buffer 4 .lower).state = .offered ∧
      ((case7 .picking none).buffer 4 .lower).state = .picking ∧ ((case7 .loaded none).buffer 4 .lower).state = .loaded ∧
      ((case7 .onRoute none).buffer 4 .lower).state = .onRoute ∧
      ((s.buffer 4 .lower).lines[5]?.map (·.held)) = some 3 ∧ 0 < 3 ∧ 2 < 3 ∧ 3 ≤ 3 ∧
      (s.buffer 4 .lower).lines.length ≤ 6 ∧ State.reset.mode = .cold ∧ 5 < 6 ∧ s.manifest 4 14 = none := by
  decide

theorem witness_CancelReturnsEveryLineAndFrees :
    let s := case7 .loaded none
    s.resetN = .high ∧ s.manifest 4 15 = some .lower ∧ (s.buffer 4 .lower).state ≠ .onRoute ∧
      (case7 .onRoute none).manifest 4 15 = some .lower ∧ ((case7 .onRoute none).buffer 4 .lower).state = .onRoute ∧ 5 < 6 ∧
      s.manifest 4 14 = none := by
  decide

/-! ## Engineering's requests -/

/-- A STAGE_SLOT's fields, every one a named value or in range. -/
def fields15 : SlotFields :=
  { kind := some .kanban, status := some .active, line := some .a, location := 0, part := 0, group := 15, allowance := 0,
    size := some .s, cq := 1, mc := 1, rop := 0, start := none, sensor := some 63, eye := 0, band := 0,
    policy := some .report, rackSize := 1, minLead := 0 }

/-- Fields that are all named values, at the ends of their ranges; and the indexes next beyond. -/
theorem witness_StagedEntriesAreClampedAndReadBack :
    active.resetN = .high ∧ active.applyState = .idle ∧ case9.applyState = .armed .a ∧
      stagedSlot? fields15 ≠ none ∧
      stagedRoute? ⟨true, some .plant, 600, 0, 0, 0, 0, 0, List.replicate 16 0, some .first, 0⟩ ≠ none ∧
      stagedRoute? ⟨true, some .plant, 600, 0, 0, 0, 0, 0, List.replicate 17 0, some .first, 0⟩ = none ∧
      stagedRoute? ⟨true, some .plant, 600, 0, 0, 0, 0, 0, [], some .first, 0⟩ = none ∧
      stagedWindow? ⟨true, 0, 0, 5, 0, none⟩ ≠ none ∧ stagedWindow? ⟨true, 0, 0, 6, 0, none⟩ = none ∧
      (31 : Variant) ≠ 0 ∧ (15 : Fin 16).val + [1].length ≤ 16 ∧ 16 < 15 + [1, 2].length ∧
      191 < 192 ∧ 5 < 6 ∧ 11 < 12 ∧ 31 < 32 ∧ 15 < 16 := by
  decide

/-- A changed slot of each pair of kinds, an OPEN line cut by a lower MC, a route counting and one not. -/
theorem witness_ApplyCopiesThePlan :
    let s := { case9 with applyState := .idle, demand := { lines := [⟨37, 2, .kanban, 0, 0, false⟩] } }
    s.resetN = .high ∧ s.applyState = .idle ∧ s.stagedConfig 37 ≠ (s.slot 37).cfg ∧ (s.stagedConfig 37).kind = .kanban ∧
      (s.slot 37).cfg.kind = .kanban ∧ s.stagedConfig 0 = (s.slot 0).cfg ∧ (s.stagedConfig 37).mc < (s.slot 37).ordered ∧
      told .lp (after (.apply .ep (some .immediate) none) s) = [.planApplied none 0 .immediate 1] ∧
      ((case80 [] 5 ⟨5, 5⟩).slot 80).cfg.kind = .sequenced ∧ ((case80 [] 5 ⟨5, 5⟩).stagedConfig 80).kind = .kanban ∧
      ((case5 1 none).route 2).counting = true ∧ ((case5 1 none).route 0).counting = false ∧
      (case5 1 none).image.routes[(2 : RouteId)].timing ≠ ((case5 1 none).route 2).cfg.timing := by
  decide

theorem witness_ApplyAgainChangesNothing :
    ∃ t, exec (.apply .ep (some .immediate) none) { case9 with applyState := .idle } = .next t := ⟨_, rfl⟩

theorem witness_ApplyIsArmedAndCancelled :
    active.resetN = .high ∧ active.applyState = .idle ∧ case9.resetN = .high ∧ case9.applyState = .armed .a := by decide

/-- The first window hit is the last of the sixteen, and no window. -/
theorem witness_CodesMapByTheFirstWindowHit :
    let s := { active with coverage := active.coverage.set 11 ⟨true, 0x130000, 0xFF0000, 3, 0, none⟩ }
    s.resetN = .high ∧ (s.mapCode 0x1302B3).isSome = true ∧ s.mapCode 0x1402B3 = none ∧ 3 < 4 ∧ 5 < 6 ∧
      (case4 true).mapCode 0x1251C0 = some (4, 2) := by
  decide

theorem witness_TopupAndCancelMoveOneSlotsDemand :
    active.resetN = .high ∧ State.reset.mode = .cold ∧ active.mode ≠ .cold ∧ (1 : Byte) ≠ 0 ∧ 191 < 192 ∧
      ((active.slot 0).cfg.status = .inactive) ∧ ((case37 0 3).slot 37).cfg.mc - ((case37 0 3).slot 37).ordered = 0 ∧
      min (255 : Byte).toNat (((case37 0 2).slot 37).cfg.mc - ((case37 0 2).slot 37).ordered) ≠ 0 ∧
      (case37 0 2).openLine 37 = none ∧ (crowd 111).length < 112 ∧ 112 ≤ (crowd 112).length ∧
      ({ case37 0 3 with demand := { lines := [⟨37, 2, .topup, 5, 1, false⟩] } }.openLine 37).isSome = true := by
  decide

theorem witness_ClearDiscrepancyNeedsAgreement :
    active.resetN = .high ∧ State.reset.mode = .cold ∧ active.mode ≠ .cold ∧ 191 < 192 ∧
      0 < ((case8 .report (some .under) 1 none).slot 37).disCount ∧ ((case8 .report none 0 (some .under)).slot 37).disCount = 0 := by
  decide

theorem witness_ModeRequestsMoveTheMode :
    let s := withSlot (State.reset.modRoute 0 fun x => { x with cfg := { x.cfg with timing := { enabled := true } } }) 37
      { cfg := cfg37 }
    s.resetN = .high ∧ s.mode = .cold ∧ (∃ r, (s.route r).cfg.timing.enabled = true) ∧
      (∃ i, (s.slot i).cfg.status = .active) ∧ State.reset.ready = false ∧
      { s with mode := .standby }.mode = .standby ∧ active.mode = .active ∧ ∀ r, (active.route r).due = none := by
  refine ⟨by decide, by decide, ⟨0, by decide⟩, ⟨37, by decide⟩, by decide +kernel, rfl, rfl, by decide⟩

/-- The two sides of each threshold of R145, with E 30 and D 5. -/
theorem witness_SensorComparisonMovesTheCount :
    let x (oh : Nat) : Slot := { cfg := { cfg37 with eye := 30, band := 5 }, oh := oh }
    (x 35001).compare .uncovered = some .under ∧ (x 35000).compare .uncovered = none ∧
      (x 24999).compare .covered = some .over ∧ (x 25000).compare .covered = none := by
  decide

end Sys2Proof.Tests
end

section
/-!
The reads of the live records (O28): what READ_SLOT, READ_QUEUE and READ_ROUTE each answer, in and out of range, and what a
numbered list, a page of the queue and a route's report hold.
-/

namespace Sys2Proof.Machine

open Sys2Proof

/-! ## Numbered lists -/

/-- An entry of a numbered list is numbered with its place, and is the list's entry there. -/
theorem numbered_getElem? {α : Type} {xs : List α} {k : Nat} {e : Nat × α} (h : (numbered xs)[k]? = some e) :
    e.1 = k ∧ xs[k]? = some e.2 := by
  obtain ⟨hk, hx⟩ := List.getElem?_zip_eq_some.mp h
  obtain ⟨_, hval⟩ := List.getElem?_eq_some_iff.mp hk
  exact ⟨by rw [← hval, List.getElem_range], hx⟩

/-- An entry of a page is numbered with the page's first number and its place, and is the list's entry of that number. -/
theorem page_getElem? {α : Type} {first k : Nat} {xs : List α} {e : Nat × α} (h : (page first xs)[k]? = some e) :
    e.1 = first + k ∧ xs[first + k]? = some e.2 := by
  rw [page, List.getElem?_take, List.getElem?_drop, Option.ite_none_right_eq_some] at h
  exact numbered_getElem? h.2

/-- The numbered windows of a table that name a route are the table's entries that name it, each under its place (R73). -/
theorem mem_windowsOf {n : Nat} (ws : Vector Window n) (r : RouteId) (k : Fin n) (w : Window) :
    (k.val, w) ∈ (numbered ws.toList).filter (·.2.route == r) ↔ ws[k] = w ∧ w.route = r := by
  simp

/-! ## Buffers in READ_ROUTE's report -/

theorem bufferNumber_eq (r : RouteId) (h : Half) :
    bufferNumber r h = if h = .lower then 2 * r.val else 2 * r.val + 1 := by
  cases h <;> rfl

theorem Buffer.live_iff (b : Buffer) : b.live = true ↔ b.state ≠ .free := by
  simp [Buffer.live]

/-- A buffer is reported with its number and state, and with its lap unless it is FREE (R117). -/
theorem State.routeReport_buffer (s : State) (r : RouteId) (h : Half) :
    (s.routeReport r).buffers.get h = {
      number := if h = .lower then 2 * r.val else 2 * r.val + 1, state := (s.buffer r h).state,
      lap := if (s.buffer r h).state = .free then none else some (s.buffer r h).lap } := by
  have report : (s.routeReport r).buffers.get h = s.bufferReport r h := by cases h <;> rfl
  rw [report, ← bufferNumber_eq]
  by_cases free : (s.buffer r h).state = .free
  · simp [State.bufferReport, Buffer.live, free]
  · simp [State.bufferReport, Buffer.live, free]

/-- The first live manifest is the one that `older` names where both are live, and the only one otherwise (R97). -/
theorem Route.liveHalves_head {x : Route} {h : Half} (hl : (x.buffers.get h).state ≠ .free)
    (ho : (x.buffers.get h.other).state ≠ .free → x.older = h) : x.liveHalves.head? = some h := by
  have live : (x.buffers.get h).live = true := (Buffer.live_iff _).2 hl
  unfold Route.liveHalves
  obtain older | older := h.eq_or_other x.older
  · simp [older, live]
  · have free : (x.buffers.get h.other).live = false := by
      rw [Bool.eq_false_iff, Ne, Buffer.live_iff]
      exact fun hn => h.other_ne (older.symm.trans (ho hn))
    simp [older, live, free]

theorem Route.liveHalves_eq_nil {x : Route} (hf : ∀ h, (x.buffers.get h).state = .free) : x.liveHalves = [] := by
  simp [Route.liveHalves, Buffer.live, hf]

/-! ## The three requests -/

/-- The requests of the common set are every port's to send (R166). -/
theorem permitted_common {q : Request} (hq : (requestCode q).toNat ≤ 7) (p : Port) : permitted p q = true :=
  (permitted_iff p q).2 (.inl ⟨by cases q <;> decide, hq⟩)

/-- A common request whose owner only answers is answered, and changes nothing beyond the asking port's unit. -/
theorem exec_common_onlyAnswers {s : State} {p : Port} {i : Instr} {q : Request} {st : Status} {b : Body}
    (hi : requestIn? i = some (p, q)) (hq : (requestCode q).toNat ≤ 7) (hs : s.resetN = .high)
    (h : takeOwner i s = reply p st b s) : ∃ t, exec i s = .next t ∧ OnlyAnswered s t p st b := by
  rw [exec_request hi hs (permitted_common hq p), h]
  exact ⟨_, rfl, reply_onlyAnswers s p st b⟩

section

variable (p : Port) (s : State)

theorem readSlot_val (i : SlotId) : readSlot p i.val s = reply p .ok (.slot (s.slot i).report) s := by
  rw [readSlot, slotOf_val]

theorem readSlot_badArg {n : Nat} (hn : 191 < n) : readSlot p n s = reply p .badArg .empty s := by
  rw [readSlot, slotOf_eq_none hn]

theorem readQueue_ok {n : Nat} (hn : n ≤ 127) : readQueue p n s = reply p .ok (.queue (s.queueReport n)) s :=
  if_neg (by omega)

theorem readQueue_badArg {n : Nat} (hn : 127 < n) : readQueue p n s = reply p .badArg .empty s :=
  if_pos hn

theorem readRoute_val (r : RouteId) : readRoute p r.val s = reply p .ok (.route (s.routeReport r)) s := by
  rw [readRoute, routeOf_val]

theorem readRoute_badArg {n : Nat} (hn : 5 < n) : readRoute p n s = reply p .badArg .empty s := by
  rw [readRoute, routeOf_eq_none hn]

end

/-! ## The reports -/

/-- A KANBAN slot is reported with its inventory position and no marks (R4, R21). -/
theorem Slot.report_kanban {x : Slot} (h : x.cfg.kind = .kanban) :
    x.report = { slot := x, ip := x.oh + x.ordered * x.cfg.cq * 1000, marks := none } := by
  rw [Slot.report, h]; rfl

/-- A SEQUENCED slot is reported with IP 0 and its marks (R21). -/
theorem Slot.report_sequenced {x : Slot} (h : x.cfg.kind = .sequenced) :
    x.report = { slot := x, ip := 0, marks := x.marks } := by
  rw [Slot.report, h]

theorem State.queueReport_length (s : State) (n : Nat) :
    (s.queueReport n).lines.length = min 8 (s.demand.lines.length - n) := by
  simp [State.queueReport, page_length]

/-- The k-th line of READ_QUEUE's report is the queue's line of that position, with its effective rank (R43, R61). -/
theorem State.queueReport_line {s : State} {n k : Nat} {x : QueueLineReport} (h : (s.queueReport n).lines[k]? = some x) :
    x.position = n + k ∧ s.demand.lines[n + k]? = some x.line ∧ x.rank = x.line.effectiveRank s.demand.ageStep := by
  simp only [State.queueReport, List.getElem?_map, Option.map_eq_some_iff] at h
  obtain ⟨e, he, rfl⟩ := h
  obtain ⟨place, entry⟩ := page_getElem? he
  exact ⟨place, entry, rfl⟩

theorem State.routeReport_older {s : State} {r : RouteId} {h : Half} (hl : (s.buffer r h).state ≠ .free)
    (ho : (s.buffer r h.other).state ≠ .free → (s.route r).older = h) :
    (s.routeReport r).older = some ((s.routeReport r).buffers.get h).number := by
  have head : (s.route r).liveHalves.head? = some h := Route.liveHalves_head hl ho
  rw [State.routeReport_buffer, ← bufferNumber_eq]
  simp [State.routeReport, head]

theorem State.routeReport_older_none {s : State} {r : RouteId} (hf : ∀ h, (s.buffer r h).state = .free) :
    (s.routeReport r).older = none := by
  have none_live : (s.route r).liveHalves = [] := Route.liveHalves_eq_nil hf
  simp [State.routeReport, none_live]

end Sys2Proof.Machine

open Sys2Proof Sys2Proof.Machine

/-- Settles O28: each read is one answer with its record's report, so what is left is what the reports hold. -/
theorem slotQueueAndRouteAreReported : Obligations.SlotQueueAndRouteAreReported := by
  intro s p hs
  refine ⟨?slot, ?slotRange, ?queue, ?route, ?queueRange, ?routeRange⟩
  case slot =>
    intro i
    obtain ⟨t, taken, answered⟩ := exec_common_onlyAnswers (i := .readSlot p i.val) rfl (by decide) hs (readSlot_val p s i)
    refine ⟨t, taken, fun kanban => ?_, fun sequenced => ?_⟩
    · rwa [Slot.report_kanban kanban] at answered
    · rwa [Slot.report_sequenced sequenced] at answered
  case queue =>
    intro n hn
    obtain ⟨t, taken, answered⟩ := exec_common_onlyAnswers (i := .readQueue p n) rfl (by decide) hs (readQueue_ok p s hn)
    exact ⟨t, (s.queueReport n).lines, taken, answered, s.queueReport_length n, fun _ _ => State.queueReport_line⟩
  case route =>
    intro r
    obtain ⟨t, taken, answered⟩ := exec_common_onlyAnswers (i := .readRoute p r.val) rfl (by decide) hs (readRoute_val p s r)
    exact ⟨t, s.routeReport r, taken, answered, rfl, rfl, rfl, rfl, rfl, rfl, rfl, rfl, rfl, rfl, rfl,
      mem_windowsOf s.diverts r, mem_windowsOf s.coverage r, s.routeReport_buffer r, fun _ => State.routeReport_older,
      State.routeReport_older_none, rfl, rfl, rfl⟩
  case slotRange =>
    intro n hn
    exact exec_common_onlyAnswers (i := .readSlot p n) rfl (by decide) hs (readSlot_badArg p s hn)
  case queueRange =>
    intro n hn
    exact exec_common_onlyAnswers (i := .readQueue p n) rfl (by decide) hs (readQueue_badArg p s hn)
  case routeRange =>
    intro n hn
    exact exec_common_onlyAnswers (i := .readRoute p n) rfl (by decide) hs (readRoute_badArg p s hn)
end

section
/-!
PROOFS about the order of sequence numbers (R25): its one function read through the distance from one number up to another.
-/

namespace Sys2Proof.Machine

open Sys2Proof

/-- The model's 16-bit subtraction is the distance modulo 65536 that R25 speaks of. -/
theorem seqNo_toNat_sub (x y : SeqNo) : (x - y).toNat = (x.toNat + 65536 - y.toNat) % 65536 := by
  have := y.isLt
  rw [BitVec.toNat_sub]
  omega

theorem seqAfter_iff (x y : SeqNo) : seqAfter x y = true ↔ 1 ≤ (x - y).toNat ∧ (x - y).toNat ≤ 32767 :=
  decide_eq_true_iff

theorem seqAfter_eq_false {x y : SeqNo} (h : 32768 ≤ (x - y).toNat) : seqAfter x y = false :=
  decide_eq_false (by omega)

/-- The distances the two ways round make up the whole circle. -/
theorem seqNo_toNat_sub_swap {x y : SeqNo} (h : 1 ≤ (x - y).toNat) : (y - x).toNat = 65536 - (x - y).toNat := by
  have := x.isLt
  have := y.isLt
  simp only [seqNo_toNat_sub] at h ⊢
  omega

theorem seqAfter_asymm {x y : SeqNo} (h : seqAfter x y = true) : seqAfter y x = false := by
  obtain ⟨apart, near⟩ := (seqAfter_iff x y).mp h
  have back : (y - x).toNat = 65536 - (x - y).toNat := seqNo_toNat_sub_swap apart
  exact seqAfter_eq_false (by omega)

/-- R25's tie: halfway round the circle is halfway round from the other side too. -/
theorem seqAfter_of_opposite {x y : SeqNo} (h : (x - y).toNat = 32768) : seqAfter x y = false ∧ seqAfter y x = false := by
  have back : (y - x).toNat = 65536 - (x - y).toNat := seqNo_toNat_sub_swap (by omega)
  exact ⟨seqAfter_eq_false (by omega), seqAfter_eq_false (by omega)⟩

end Sys2Proof.Machine

open Sys2Proof Sys2Proof.Machine

/-- Settles O31: the model's subtraction is R25's distance, and the two ways round add up to 65536. -/
theorem sequenceNumbersCompareModulo : Obligations.SequenceNumbersCompareModulo := by
  intro x y
  rw [← seqNo_toNat_sub]
  exact ⟨seqAfter_iff x y, seqAfter_of_opposite, seqAfter_asymm⟩
end

section
/-!
PROOFS about SET_GATE (R80, O14): the gate state each mode sets, what the request writes into the line's clock, and what it
leaves alone.
-/

namespace Sys2Proof.Machine

open Sys2Proof

/-! ## The gate a mode sets -/

/-- R80's gate state: RUN's level in FOLLOW, open in STOP_ONCE and OPEN, closed in START_ONCE and HELD. -/
theorem gateOpenAt_eq (mode : GateMode) (run : Level) :
    gateOpenAt mode run = ((mode == .follow && run == .high) || mode == .stopOnce || mode == .opened) := by
  cases mode with
  | follow => cases run with | low | high => rfl
  | startOnce | stopOnce | opened | held => rfl

/-! ## The request -/

section

variable (p : Port) (s : State)

theorem setGate_named (l : Line) (m : GateMode) : setGate p (some l) (some m) s =
    reply p .ok (.gate m (gateOpenAt m (s.clock l).run) false) (s.modClock l fun x => x.write m) := rfl

theorem setGate_badArg {l : Option Line} {m : Option GateMode} (h : l = none ∨ m = none) :
    setGate p l m s = reply p .badArg .empty s := by
  obtain rfl | rfl := h
  · rfl
  · cases l <;> rfl

end

/-- EP's SET_GATE is taken as R80 says, in every mode of the device. -/
theorem exec_setGate_ep {s : State} (hs : s.resetN = .high) (l : Option Line) (m : Option GateMode) :
    exec (.setGate .ep l m) s = .next (setGate .ep l m s) :=
  exec_request rfl hs (by decide)

end Sys2Proof.Machine

open Sys2Proof Sys2Proof.Machine

/-- Settles O14: a named line's clock takes the write of R80 and no other clock moves; an unnamed line or mode is only answered. -/
theorem setGateWritesModeLatchAndGate : Obligations.SetGateWritesModeLatchAndGate := by
  intro s hs
  constructor
  case left =>
    intro l m
    simp only [← gateOpenAt_eq]
    refine ⟨_, exec_setGate_ep hs _ _, ?_⟩
    rw [setGate_named]
    refine ⟨reply_answers (State.modClock_ports s l _), rfl, ?others, ?own⟩
    case others =>
      intro k hk
      rw [reply_clock, State.clock_modClock_ne _ _ hk]
    case own =>
      rw [reply_clock, State.clock_modClock_self]
      rfl
  case right =>
    intro l m unnamed
    rw [exec_setGate_ep hs, setGate_badArg .ep s unnamed]
    exact ⟨_, rfl, reply_onlyAnswers s .ep .badArg .empty⟩
end

section
/-!
PROOFS about the comparison and the disagreement count (R145, R146, O39): when a sensor disagrees with the estimate, and the
record a comparison leaves.
-/

namespace Sys2Proof.Machine

open Sys2Proof

/-! ## The comparison -/

/-- Only an uncovered sensor can show the estimate too high, and it does above E + D (R145). -/
theorem Slot.compare_eq_under_iff (x : Slot) (v : SensorState) :
    x.compare v = some .under ↔ v = .uncovered ∧ (x.cfg.eye + x.cfg.band) * 1000 < x.oh := by
  cases v with
  | covered => simp [Slot.compare]
  | uncovered => simp [Slot.compare]

/-- Only a covered sensor can show the estimate too low, and it does below E - D where D is at most E (R145). -/
theorem Slot.compare_eq_over_iff (x : Slot) (v : SensorState) :
    x.compare v = some .over ↔
      v = .covered ∧ x.cfg.band ≤ x.cfg.eye ∧ x.oh < (x.cfg.eye - x.cfg.band) * 1000 := by
  cases v with
  | covered => simp [Slot.compare]
  | uncovered => simp [Slot.compare]

/-! ## The count -/

/-- A single agreeing snapshot ends a run (R146). -/
theorem Slot.moved_none (x : Slot) : x.moved none = { x with disKind := none, disCount := 0 } := rfl

/-- A disagreement of the kind held carries the run on, to 4 at most (R146). -/
theorem Slot.moved_sameKind {x : Slot} {k : DiscKind} (h : x.disKind = some k) :
    x.moved (some k) = { x with disKind := some k, disCount := min (x.disCount + 1) 4 } :=
  (if_pos h).trans (by rw [← h])

/-- A disagreement of another kind, or after agreement, begins a run (R146). -/
theorem Slot.moved_otherKind {x : Slot} {k : DiscKind} (h : x.disKind ≠ some k) :
    x.moved (some k) = { x with disKind := some k, disCount := 1 } :=
  if_neg h

end Sys2Proof.Machine

open Sys2Proof Sys2Proof.Machine

/-- Settles O39: the comparison by the state of the sensor, the count by whether the run goes on. -/
theorem sensorComparisonMovesTheCount : Obligations.SensorComparisonMovesTheCount := by
  intro x v
  refine ⟨x.compare_eq_under_iff v, x.compare_eq_over_iff v, fun r => ?_⟩
  cases r with
  | none => exact x.moved_none
  | some k =>
    by_cases same : x.disKind = some k
    · rw [Slot.moved_sameKind same]
      simp only [if_pos same]
    · rw [Slot.moved_otherKind same]
      simp only [if_neg same]
end

section
/-!
PROOFS about CLEAR_DISCREPANCY (R152, O59): its refusals in their order, and what an accepted clear does to the slot.
-/

namespace Sys2Proof.Machine

open Sys2Proof

/-- What an accepted clear does to a slot's record before it evaluates (R152). -/
def Slot.cleared (x : Slot) : Slot := { x with discrepant := none, withheld := false }

/-- The cleared slot, then its evaluation (R152). -/
def State.clearSlot (s : State) (i : SlotId) : State := (s.modSlot i Slot.cleared).evaluate i

/-! ## What a clear moves -/

/-- Beyond the flags it clears, an accepted clear moves only what the slot's evaluation moves. -/
theorem State.clearSlot_moves (s : State) (i : SlotId) : MovesOrders i (s.modSlot i Slot.cleared) (s.clearSlot i) :=
  evaluate_moves i _

theorem State.clearSlot_ports (s : State) (i : SlotId) : (s.clearSlot i).ports = s.ports :=
  (s.clearSlot_moves i).ports

theorem State.clearSlot_others (s : State) (i : SlotId) : OnlySlot s (s.clearSlot i) i := fun j hj =>
  ((s.clearSlot_moves i).others j hj).trans (s.slot_modSlot_ne Slot.cleared hj)

theorem State.clearSlot_own (s : State) (i : SlotId) : SameButOrders (s.slot i).cleared ((s.clearSlot i).slot i) := by
  have own := (s.clearSlot_moves i).own
  rwa [State.slot_modSlot_self] at own

/-- A SEQUENCED slot is cleared without an evaluation (R18, R152). -/
theorem State.clearSlot_sequenced {s : State} {i : SlotId} (h : (s.slot i).cfg.kind = .sequenced) :
    s.clearSlot i = s.modSlot i Slot.cleared :=
  State.evaluate_sequenced (by rwa [State.slot_modSlot_self])

/-! ## The request -/

section

variable {s : State} (p : Port)

theorem clearDiscrepancy_cold (hm : s.mode = .cold) (n : Nat) :
    clearDiscrepancy p n s = reply p .notActive .empty s :=
  if_pos hm

theorem clearDiscrepancy_badArg (hm : s.mode ≠ .cold) {n : Nat} (hn : 191 < n) :
    clearDiscrepancy p n s = reply p .badArg .empty s := by
  rw [clearDiscrepancy, if_neg hm, slotOf_eq_none hn]

theorem clearDiscrepancy_stillPresent (hm : s.mode ≠ .cold) {i : SlotId} (hc : 0 < (s.slot i).disCount) :
    clearDiscrepancy p i.val s = reply p .stillPresent (.disagreement (s.slot i).disKind (s.slot i).disCount) s := by
  rw [clearDiscrepancy, if_neg hm, slotOf_val]
  exact if_pos hc

theorem clearDiscrepancy_accepted (hm : s.mode ≠ .cold) {i : SlotId} (hc : (s.slot i).disCount = 0) :
    clearDiscrepancy p i.val s =
      reply p .ok (.discrepancyCleared ((s.slot i).discrepant != none) (s.slot i).withheld) (s.clearSlot i) := by
  have flagged : ((s.slot i).discrepant != none) = (s.slot i).discrepant.isSome := by
    rw [bne, Option.beq_none, Option.not_isNone]
  rw [clearDiscrepancy, if_neg hm, slotOf_val, flagged]
  exact if_neg (by omega)

end

/-- EP's CLEAR_DISCREPANCY is taken as R152 says. -/
theorem exec_clearDiscrepancy_ep {s : State} (hs : s.resetN = .high) (n : Nat) :
    exec (.clearDiscrepancy .ep n) s = .next (clearDiscrepancy .ep n s) :=
  exec_request rfl hs (by decide)

/-- A refused CLEAR_DISCREPANCY is answered, and changes nothing beyond the port's unit. -/
theorem exec_clearDiscrepancy_onlyAnswers {s : State} {n : Nat} {st : Status} {b : Body} (hs : s.resetN = .high)
    (h : clearDiscrepancy .ep n s = reply .ep st b s) :
    ∃ t, exec (.clearDiscrepancy .ep n) s = .next t ∧ OnlyAnswered s t .ep st b := by
  rw [exec_clearDiscrepancy_ep hs, h]
  exact ⟨_, rfl, reply_onlyAnswers s .ep st b⟩

end Sys2Proof.Machine

open Sys2Proof Sys2Proof.Machine

/-- Settles O59: each refusal is one answer, and an accepted clear is the cleared record followed by its evaluation. -/
theorem clearDiscrepancyNeedsAgreement : Obligations.ClearDiscrepancyNeedsAgreement := by
  intro s i hs
  refine ⟨?cold, ?range, ?disagreeing, ?agreeing⟩
  case cold =>
    intro hm n
    exact exec_clearDiscrepancy_onlyAnswers hs (clearDiscrepancy_cold .ep hm n)
  case range =>
    intro hm n hn
    exact exec_clearDiscrepancy_onlyAnswers hs (clearDiscrepancy_badArg .ep hm hn)
  case disagreeing =>
    intro hm hc
    exact exec_clearDiscrepancy_onlyAnswers hs (clearDiscrepancy_stillPresent .ep hm hc)
  case agreeing =>
    intro hm hc
    refine ⟨_, exec_clearDiscrepancy_ep hs i.val, ?_⟩
    rw [clearDiscrepancy_accepted .ep hm hc]
    refine ⟨reply_answers (s.clearSlot_ports i), rfl, s.clearSlot_others i, s.clearSlot_own i, fun sequenced => ?_⟩
    rw [State.clearSlot_sequenced sequenced]
    rfl
end

section
/-!
PROOFS about READ_STATUS and READ_COUNTERS (R174, R182, O27): what each reports, in the words of the rules.
-/

namespace Sys2Proof.Machine

open Sys2Proof

/-! ## READ_STATUS -/

/-- The model asks whether a value is there, the rules' words whether it differs from none. -/
theorem isSome_eq_bne_none {α : Type} [BEq α] (x : Option α) : x.isSome = (x != none) := by
  rw [bne, Option.beq_none, Option.not_isNone]

/-- A line is reported with whether it has a last unit, that unit, its list's length and head, and its clock (R40, R81). -/
theorem State.lineReport_eq (s : State) (l : Line) : s.lineReport l = {
    anchored := (s.seq l).last != none, last := (s.seq l).last, count := (s.seq l).units.length,
    head := (s.seq l).units[0]?.map (·.seq), clock := s.clock l } := by
  rw [State.lineReport, isSome_eq_bne_none, List.head?_eq_getElem?]

/-! ## READ_COUNTERS -/

/-- The slots that pass a test are as many as a count over the whole table finds (R182). -/
theorem State.slotsWhere_length (s : State) (f : Slot → Bool) :
    (s.slotsWhere f).length = (List.finRange 192).countP fun i => f (s.slot i) :=
  List.countP_eq_length_filter.symm

/-- EP's READ_COUNTERS is answered, and changes nothing beyond the port's unit (R182). -/
theorem exec_readCounters_ep {s : State} (hs : s.resetN = .high) :
    ∃ t, exec (.readCounters .ep) s = .next t ∧ OnlyAnswered s t .ep .ok (.counters s.countersReport) :=
  ⟨_, exec_request rfl hs (by decide), reply_onlyAnswers s .ep .ok (.counters s.countersReport)⟩

end Sys2Proof.Machine

open Sys2Proof Sys2Proof.Machine

/-- Settles O27: each read is one answer with its report; the line reports and the four slot counts are put in the rules' words. -/
theorem statusAndCountersAreReported : Obligations.StatusAndCountersAreReported := by
  intro s p hs
  constructor
  case left =>
    simp only [← State.lineReport_eq]
    exact exec_common_onlyAnswers (i := .readStatus p) rfl (by decide) hs rfl
  case right =>
    simp only [← isSome_eq_bne_none, ← State.slotsWhere_length, ← s.slotsWhere_length (·.discrepant.isSome)]
    exact exec_readCounters_ep hs
end

section
/-!
PROOFS about the notice queues (R169 to R173): how a copy arrives by the queue's mode (O24), and what the two requests on the asking
port's own queue do (O26).
-/

namespace Sys2Proof.Machine

open Sys2Proof

/-! ## A copy's arrival, by the queue's mode and whether it has room (R169, R170) -/

section

variable {q : NoticeQueue}

theorem NoticeQueue.arrive_haltRoom (hm : q.mode = .halt) (hk : q.marker = false) (hl : q.items.length < 16) (n : Notice) :
    q.arrive n = (q.join n).judge := by
  rw [NoticeQueue.arrive, hm]
  exact if_pos ⟨hk, hl⟩

theorem NoticeQueue.arrive_haltLost (hm : q.mode = .halt) (h : q.marker = true ∨ 16 ≤ q.items.length) (n : Notice) :
    q.arrive n = q.lose.judge := by
  rw [NoticeQueue.arrive, hm]
  refine if_neg fun ⟨clear, room⟩ => ?_
  obtain marked | full := h
  · exact absurd (marked.symm.trans clear) (by decide)
  · omega

theorem NoticeQueue.arrive_streamRoom (hm : q.mode = .stream) (hl : q.items.length < 16) (n : Notice) :
    q.arrive n = (q.join n).judge := by
  rw [NoticeQueue.arrive, hm]
  exact if_pos hl

theorem NoticeQueue.arrive_streamFull (hm : q.mode = .stream) (hl : 16 ≤ q.items.length) (n : Notice) :
    q.arrive n = (({ q with items := q.items.tail } : NoticeQueue).lose.join n).judge := by
  rw [NoticeQueue.arrive, hm]
  exact if_neg (by omega)

/-- Once the marker is set, a lost copy is only counted (R169). -/
theorem NoticeQueue.lose_marked (hk : q.marker = true) : q.lose = { q with lost := bump q.lost } := by
  rw [NoticeQueue.lose, hk]

end

/-! ## The attention output -/

/-- Whatever a copy does to a queue, the output is judged after it (R173). -/
theorem NoticeQueue.arrive_judged (q : NoticeQueue) (n : Notice) : ∃ x, q.arrive n = NoticeQueue.judge x := by
  obtain ⟨-, -, joined⟩ | ⟨-, -, lost⟩ | ⟨-, -, displaced⟩ := q.arrive_cases n
  · exact ⟨_, joined⟩
  · exact ⟨_, lost⟩
  · exact ⟨_, displaced⟩

/-! ## The requests on a port's own queue -/

/-- An accepted SET_NOTICE_MODE's effect on the asking port's queue (R172): its mode and N, and the output judged. -/
def NoticeQueue.setMode (q : NoticeQueue) (m : QueueMode) (n : Nat) : NoticeQueue :=
  ({ q with mode := m, threshold := n } : NoticeQueue).judge

/-- A read leaves the rest of the queue, and the marker where that is not empty (R171). -/
theorem NoticeQueue.read_eq (q : NoticeQueue) (n : Nat) :
    q.read n = ({ q with items := q.items.drop n, marker := q.marker && decide (n < q.items.length) } : NoticeQueue).judge := by
  have some_left : (!(q.items.drop n).isEmpty) = decide (n < q.items.length) := by
    rw [Bool.eq_iff_iff, Bool.not_eq_true', List.isEmpty_eq_false_iff, Ne, List.drop_eq_nil_iff, not_le, decide_eq_true_iff]
  rw [NoticeQueue.read, some_left]

section

variable (p : Port) (s : State)

theorem readNotices_ok {n : Nat} (h1 : 1 ≤ n) (h8 : n ≤ 8) : readNotices p n s =
    reply p .ok (.notices (s.queue p).marker ((s.queue p).items.length - n) ((s.queue p).items.take n))
      (s.modQueue p fun q => q.read n) := by
  rw [← List.length_drop]
  exact if_neg (by omega)

theorem readNotices_badArg {n : Nat} (h : n = 0 ∨ 8 < n) : readNotices p n s = reply p .badArg .empty s :=
  if_pos h

theorem setNoticeMode_ok {n : Nat} (m : QueueMode) (h1 : 1 ≤ n) (h4 : n ≤ 4) : setNoticeMode p (some m) n s =
    reply p .ok (.noticeMode m n (s.queue p).items.length (s.queue p).marker) (s.modQueue p fun q => q.setMode m n) :=
  if_neg (by omega)

theorem setNoticeMode_badArg {n : Nat} {m : Option QueueMode} (h : m = none ∨ n = 0 ∨ 4 < n) :
    setNoticeMode p m n s = reply p .badArg .empty s := by
  cases m with
  | none => rfl
  | some m => exact if_pos (h.resolve_left (by simp))

end

/-- A common request whose owner changes the asking port's queue and answers OK: the answer, and the frame. -/
theorem exec_common_modQueue {s : State} {p : Port} {i : Instr} {r : Request} {b : Body} {f : NoticeQueue → NoticeQueue}
    (hi : requestIn? i = some (p, r)) (hr : (requestCode r).toNat ≤ 7) (hs : s.resetN = .high)
    (h : takeOwner i s = reply p .ok b (s.modQueue p f)) :
    ∃ t, exec i s = .next t ∧ Answered s t p .ok b ∧ t = { s with queues := t.queues, ports := t.ports } ∧
      (∀ k, k ≠ p → t.queue k = s.queue k) ∧ t.queue p = f (s.queue p) := by
  rw [exec_request hi hs (permitted_common hr p), h]
  exact ⟨_, rfl, reply_answers rfl, rfl, fun _ hk => s.queue_modQueue_ne f hk, s.queue_modQueue_self p f⟩

/-- An accepted READ_NOTICES (R171). -/
theorem exec_readNotices_accepted {s : State} (hs : s.resetN = .high) (p : Port) {n : Nat} (h1 : 1 ≤ n) (h8 : n ≤ 8) :
    ∃ t, exec (.readNotices p n) s = .next t ∧
      Answered s t p .ok (.notices (s.queue p).marker ((s.queue p).items.length - n) ((s.queue p).items.take n)) ∧
      t = { s with queues := t.queues, ports := t.ports } ∧ (∀ k, k ≠ p → t.queue k = s.queue k) ∧
      t.queue p = (s.queue p).read n :=
  exec_common_modQueue (i := .readNotices p n) rfl (by decide) hs (readNotices_ok p s h1 h8)

/-- An accepted SET_NOTICE_MODE (R172). -/
theorem exec_setNoticeMode_accepted {s : State} (hs : s.resetN = .high) (p : Port) {n : Nat} (m : QueueMode) (h1 : 1 ≤ n)
    (h4 : n ≤ 4) : ∃ t, exec (.setNoticeMode p (some m) n) s = .next t ∧
      Answered s t p .ok (.noticeMode m n (s.queue p).items.length (s.queue p).marker) ∧
      t = { s with queues := t.queues, ports := t.ports } ∧ (∀ k, k ≠ p → t.queue k = s.queue k) ∧
      t.queue p = (s.queue p).setMode m n :=
  exec_common_modQueue (i := .setNoticeMode p (some m) n) rfl (by decide) hs (setNoticeMode_ok p s m h1 h4)

end Sys2Proof.Machine

open Sys2Proof Sys2Proof.Machine

/-- Settles O24: the arrival mode by mode, and every change of a queue or of N ends with its output judged. -/
theorem noticeCopiesArriveByMode : Obligations.NoticeCopiesArriveByMode := by
  constructor
  case left =>
    intro q n
    refine ⟨?haltRoom, ?haltFull, ?haltMarked, ?streamRoom, ?streamFull⟩
    case haltRoom =>
      intro hm hk hl
      rw [NoticeQueue.arrive_haltRoom hm hk hl]
      rfl
    case haltFull =>
      intro hm _ hl
      rw [NoticeQueue.arrive_haltLost hm (.inr hl)]
      rfl
    case haltMarked =>
      intro hm hk
      rw [NoticeQueue.arrive_haltLost hm (.inl hk), NoticeQueue.lose_marked hk]
      rfl
    case streamRoom =>
      intro hm hl
      rw [NoticeQueue.arrive_streamRoom hm hl]
      rfl
    case streamFull =>
      intro hm hl
      rw [NoticeQueue.arrive_streamFull hm hl, List.drop_one]
      rfl
  case right =>
    intro q n k
    refine ⟨?copy, (NoticeQueue.judge_attn _ :), (NoticeQueue.judge_attn _ :), ?mode⟩
    case copy =>
      obtain ⟨x, judged⟩ := q.arrive_judged n
      rw [judged]
      exact x.judge_attn
    case mode =>
      intro s p m hs h1 h4
      obtain ⟨t, taken, -, -, -, own⟩ := exec_setNoticeMode_accepted hs p m h1 h4
      refine ⟨t, taken, ?_⟩
      rw [own]
      exact NoticeQueue.judge_attn _

/-- Settles O26: an accepted request is one answer and one change of the asking port's queue; a refused one is only answered. -/
theorem queueRequestsServeTheAskingPort : Obligations.QueueRequestsServeTheAskingPort := by
  intro s p hs
  refine ⟨?read, ?mode, ?readRange, ?modeRange⟩
  case read =>
    intro n h1 h8
    obtain ⟨t, taken, answered, rest, others, own⟩ := exec_readNotices_accepted hs p h1 h8
    exact ⟨t, taken, answered, rest, others, own.trans ((s.queue p).read_eq n)⟩
  case mode =>
    intro n m h1 h4
    exact exec_setNoticeMode_accepted hs p m h1 h4
  case readRange =>
    intro n h
    exact exec_common_onlyAnswers (i := .readNotices p n) rfl (by decide) hs (readNotices_badArg p s h)
  case modeRange =>
    intro n m h
    exact exec_common_onlyAnswers (i := .setNoticeMode p m n) rfl (by decide) hs (setNoticeMode_badArg p s h)
end

section
/-!
PROOFS: what one step can do, said once. `Effect` lists the changes a command can make beyond the port units, each with the tests that
were passed on the way; every command is one of them followed by an answer. The proofs that a law is kept go by cases on it.
-/

namespace Sys2Proof.Machine

open Sys2Proof

/-- The changes that a command can make beyond the port units, each with the conditions under which it is made. -/
inductive Effect (s : State) : State → Prop
  | nothing : Effect s s
  | powerOn (v : Level) : Effect s { s.poweredOn with resetN := v }
  | edge (l : Line) (v : Level) : Effect s (s.modClock l fun x => x.edge v)
  | gate (l : Line) (m : GateMode) : Effect s (s.modClock l fun x => x.write m)
  | decisecond (active : s.mode = .active) : Effect s s.settleRoutes.tickClocks.countRoutes
  | wrap (r : RouteId) (due : (s.route r).due = some .wrap) : Effect s (s.wrapPoint r)
  | build (r : RouteId) (due : (s.route r).due = some .build) : Effect s (s.buildPoint r)
  | departure (r : RouteId) (due : (s.route r).due = some .departure) : Effect s (s.departurePoint r)
  | skipped (r : RouteId) (due : (s.route r).due = some .skipped) : Effect s (s.skippedPoint r)
  | readNotices (p : Port) (n : Nat) : Effect s (s.modQueue p fun q => q.read n)
  | setNoticeMode (p : Port) (m : QueueMode) (n : Nat) (low : 1 ≤ n) (high : n ≤ 4) :
      Effect s (s.modQueue p fun q => q.setMode m n)
  | announceFirst (l : Line) (seq : SeqNo) (v : Variant) (mark : Bool) (active : s.mode = .active)
      (room : (s.seq l).units.length < 64) (unanchored : (s.seq l).last = none) :
      Effect s ((s.anchor l seq).modSeq l fun q => q.append ⟨seq, v, mark⟩)
  | announceNext (l : Line) (seq : SeqNo) (v : Variant) (mark : Bool) (active : s.mode = .active)
      (room : (s.seq l).units.length < 64) (last : SeqNo) (anchored : (s.seq l).last = some last) (next : seq = last + 1) :
      Effect s (s.modSeq l fun q => q.append ⟨seq, v, mark⟩)
  | advance (l : Line) (seq : SeqNo) (v : Variant) (mark : Bool) (active : s.mode = .active) :
      Effect s (s.takeAdvance l seq v mark)
  | snapshot (bank : Nat) (states : Vector SensorState 32) (active : s.mode = .active) :
      Effect s ((s.slotsWhere (Slot.checkedBy bank)).foldl (checkSlot states) ⟨s, 0, 0⟩).st
  | depart (r : RouteId) (h : Half) (awake : s.mode ≠ .cold) (idle : s.manifestIn r .onRoute = none)
      (loaded : s.manifestIn r .loaded = some h) :
      Effect s ((s.modBuffer r h fun b => { b with state := .onRoute, stops := some (s.route r).cfg.stops }).modRoute r
        fun x => { x with pointer := 0, current := none })
  | arrive (r : RouteId) (h : Half) (id : Byte) (k : Nat) (awake : s.mode ≠ .cold)
      (train : s.manifestIn r .onRoute = some h)
      (found : findStop ((s.buffer r h).stops.getD []) (s.route r).pointer id = .found k) :
      Effect s (((s.handBack r h (leftBehind (s.route r).current (s.route r).pointer k) asUrgent).tellReturned r
        (s.buffer r h).lap .skipped (s.backLines r h (leftBehind (s.route r).current (s.route r).pointer k)).length).modRoute r
        fun x => { x with current := some k, pointer := k + 1 })
  | dropMissed (r : RouteId) : Effect s (s.modRoute r fun x => { x with mismatches := bump x.mismatches })
  | dropHit (r : RouteId) (h : Half) (n : Nat) (y : ManifestLine) (awake : s.mode ≠ .cold)
      (train : s.manifestIn r .onRoute = some h) (line : (s.buffer r h).lines[n]? = some y) (planned : y.state = .planned) :
      Effect s ((s.modBuffer r h fun b => { b with lines := b.lines.set n y.dropped }).deliverLine y.dropped)
  | lapEnd (r : RouteId) (h : Half) (awake : s.mode ≠ .cold) (train : s.manifestIn r .onRoute = some h) :
      Effect s (((s.handBack r h (fun _ => true) asUrgent).tellReturned r (s.buffer r h).lap .lapEnd
        (s.backLines r h fun _ => true).length).modRoute r fun x => x.freed h)
  | beginPick (r : RouteId) (h : Half) (awake : s.mode ≠ .cold) (offered : (s.buffer r h).state = .offered) :
      Effect s (s.modBuffer r h fun b => { b with state := .picking })
  | shortPick (r : RouteId) (h : Half) (n : Nat) (x : ManifestLine) (picked : Nat) (awake : s.mode ≠ .cold)
      (waiting : (s.buffer r h).state = .offered ∨ (s.buffer r h).state = .picking)
      (line : (s.buffer r h).lines[n]? = some x) (fewer : picked < x.held) :
      Effect s (((s.modBuffer r h fun b => b.shortPicked n x picked).returnLine x (x.held - picked) .urgent).tellReturned r
        (s.buffer r h).lap .shortPick 1)
  | loadConfirm (r : RouteId) (h : Half) (awake : s.mode ≠ .cold)
      (waiting : (s.buffer r h).state = .offered ∨ (s.buffer r h).state = .picking) :
      Effect s (s.modBuffer r h fun b => { b with state := .loaded })
  | late (r : RouteId) (on : Bool) : Effect s (s.modRoute r fun x => { x with late := on })
  | hold (r : RouteId) (on : Bool) : Effect s (s.modRoute r fun x => { x with hold := on })
  | stageSlot (i : SlotId) (f : SlotFields) (c : SlotConfig) (staged : stagedSlot? f = some c) :
      Effect s (s.modImage fun m => { m with slots := m.slots.set i c })
  | stageUsage (l : Line) (row : UsageRow) (k : StagedRow) (g : Fin 16) (values : List Nat) (staged : stagedRow? row = some k) :
      Effect s (s.modImage fun m => { m with usage := m.usage.modify l fun u => u.write k g.val (values.map (min · k.bound)) })
  | stageRoute (r : RouteId) (f : RouteFields) (c : RouteConfig) (staged : stagedRoute? f = some c) :
      Effect s (s.modImage fun m => { m with routes := m.routes.set r c })
  | stageWindow (k : Fin 12) (f : WindowFields) (w : Window) (staged : stagedWindow? f = some w) :
      Effect s (s.modImage fun m => { m with windows := m.windows.set k w })
  | stageGlobals (f : GlobalFields) :
      Effect s (s.modImage fun m => { m with ageStep := min f.ageStep 7, watermark := clamp 1 128 f.watermark })
  | apply : Effect s (s.applyImage none .immediate 0)
  | arm (a : ApplyState) : Effect s { s with applyState := a }
  | divert (k : Fin 4) (f : WindowFields) (w : Window) (staged : stagedWindow? f = some w) :
      Effect s { s with diverts := s.diverts.set k w }
  | topupMerged (i : SlotId) (g : Nat) (awake : s.mode ≠ .cold) (kanban : (s.slot i).cfg.kind = .kanban)
      (room : g ≤ (s.slot i).cfg.mc - (s.slot i).ordered) (some : g ≠ 0) (line : (s.openLine i).isSome = true) :
      Effect s ((s.mergeOpen i g .topup).raiseOrdered i g)
  | topupCreated (i : SlotId) (g : Nat) (awake : s.mode ≠ .cold) (kanban : (s.slot i).cfg.kind = .kanban)
      (room : g ≤ (s.slot i).cfg.mc - (s.slot i).ordered) (some : g ≠ 0) (line : s.openLine i = none)
      (few : s.demand.lines.length < 112) : Effect s ((s.createOpen i g .topup).raiseOrdered i g)
  | topupRefused (i : SlotId) (g : Nat) : Effect s (s.refuseLine i .topup g)
  | cancelDemand (i : SlotId) (x : DemandLine) (line : s.openLine i = some x) :
      Effect s ((s.removeOpen i).lowerOrdered i x.containers)
  | cancelManifest (r : RouteId) (h : Half) (live : (s.buffer r h).state ≠ .free) (waiting : (s.buffer r h).state ≠ .onRoute) :
      Effect s (((s.handBack r h (fun _ => true) asSelected).tellReturned r (s.buffer r h).lap .cancel
        (s.backLines r h fun _ => true).length).modRoute r fun x => x.freed h)
  | clear (i : SlotId) (awake : s.mode ≠ .cold) (agreeing : (s.slot i).disCount = 0) : Effect s (s.clearSlot i)
  | startCold (cold : s.mode = .cold) : Effect s (s.runReset.enter .active)
  | startAgain (standby : s.mode = .standby) : Effect s (s.enter .active)
  | stop (active : s.mode = .active) : Effect s (s.settleRoutes.enter .standby)
  | runReset (standby : s.mode = .standby) : Effect s (s.runReset.enter .standby)

/-! ## Every request is an effect and its answer -/

/-- From s to t an effect was made, and the port answered. -/
def Answers (s : State) (p : Port) (t : State) : Prop := ∃ u st b, Effect s u ∧ t = reply p st b u

section

variable {s u : State} {p : Port} {st : Status} {b : Body}

theorem Answers.of (e : Effect s u) : Answers s p (reply p st b u) := ⟨u, st, b, e, rfl⟩

theorem Answers.only : Answers s p (reply p st b s) := .of .nothing

/-- A request that names a manifest is refused, or goes on with a live one. -/
theorem Answers.atManifest {route : Nat} {lap : Lap} {k : RouteId → Half → State}
    (found : ∀ r h, (s.buffer r h).state ≠ .free → Answers s p (k r h)) : Answers s p (atManifest p route lap s k) := by
  unfold Machine.atManifest
  split
  · exact .only
  · split
    · exact .only
    next h e => exact found _ h ((Buffer.live_iff _).mp (State.manifest_some e).1)

/-- A train's request is refused, or goes on outside COLD. -/
theorem Answers.atTrain {route : Nat} {k : RouteId → State} (awake : s.mode ≠ .cold → ∀ r, Answers s p (k r)) :
    Answers s p (atTrain p route s k) := by
  unfold Machine.atTrain
  split
  · exact .only
  next hm =>
    split
    · exact .only
    · exact awake hm _

variable (s p)

theorem readNotices_answers (n : Nat) : Answers s p (readNotices p n s) := by
  unfold readNotices
  split
  · exact .only
  · exact .of (.readNotices p n)

theorem setNoticeMode_answers (m : Option QueueMode) (n : Nat) : Answers s p (setNoticeMode p m n s) := by
  cases m with
  | none => exact .only
  | some m =>
    by_cases hn : n = 0 ∨ 4 < n
    · rw [setNoticeMode_badArg p s (.inr hn)]; exact .only
    · rw [setNoticeMode_ok p s m (by omega) (by omega)]
      exact .of (.setNoticeMode p m n (by omega) (by omega))

theorem announce_answers (line : Option Line) (seq : SeqNo) (n : Nat) (mark : Bool) :
    Answers s p (announce p line seq n mark s) := by
  unfold announce
  split
  · exact .only
  next l =>
    dsimp only
    split
    · exact .only
    next active =>
      split
      · exact .only
      next v _ =>
        split
        · exact .only
        next room =>
          split
          next unanchored => exact .of (.announceFirst l seq v mark (by simpa using active) (by omega) unanchored)
          next last anchored =>
            split
            next next_ => exact .of (.announceNext l seq v mark (by simpa using active) (by omega) last anchored next_)
            · exact .only

theorem advance_answers (line : Option Line) (seq : SeqNo) (n : Nat) (mark : Bool) :
    Answers s p (advance p line seq n mark s) := by
  unfold advance
  split
  · exact .only
  next active =>
    split
    · exact .of (.advance _ seq _ mark (by simpa using active))
    · exact .only

theorem sensorSnapshot_answers (bank : Nat) (states : Vector SensorState 32) :
    Answers s p (sensorSnapshot p bank states s) := by
  unfold sensorSnapshot
  split
  · exact .only
  next active =>
    split
    · exact .only
    · exact .of (.snapshot bank states (by simpa using active))

theorem depart_answers (route : Nat) : Answers s p (depart p route s) := .atTrain fun awake r => by
  split
  · exact .only
  next idle =>
    split
    · exact .only
    next h loaded => exact .of (.depart r h awake (by simpa using idle) loaded)

theorem arrive_answers (route : Nat) (id : Byte) : Answers s p (arrive p route id s) := .atTrain fun awake r => by
  split
  · exact .only
  next h train =>
    dsimp only
    split
    · exact .only
    · exact .only
    next k found => exact .of (.arrive r h id k awake train found)

theorem drop_answers (route : Nat) (label : DropLabel) : Answers s p (drop p route label s) := .atTrain fun awake r => by
  split
  · exact .only
  next h train =>
    dsimp only
    split
    · exact .only
    next stop _ =>
      split
      · exact .of (.dropMissed r)
      next n y hit =>
        obtain ⟨line, -, planned, -⟩ := dropHit_some hit
        exact .of (.dropHit r h n y awake train line planned)

theorem lapEnd_answers (route : Nat) : Answers s p (lapEnd p route s) := .atTrain fun awake r => by
  split
  · exact .only
  next h train => exact .of (.lapEnd r h awake train)

theorem beginPick_answers (route : Nat) (lap : Lap) : Answers s p (beginPick p route lap s) := by
  unfold beginPick
  split
  · exact .only
  next awake =>
    refine .atManifest fun r h _ => ?_
    dsimp only
    split
    next offered => exact .of (.beginPick r h awake offered)
    · exact .only

theorem shortPick_answers (route : Nat) (lap : Lap) (line picked : Nat) :
    Answers s p (shortPick p route lap line picked s) := by
  unfold shortPick
  split
  · exact .only
  next awake =>
    refine .atManifest fun r h _ => ?_
    dsimp only
    split
    · exact .only
    next waiting =>
      split
      · exact .only
      next x hx =>
        split
        · exact .only
        next fewer =>
          exact .of (.shortPick r h line x picked awake (by tauto) hx (by omega))

theorem loadConfirm_answers (route : Nat) (lap : Lap) : Answers s p (loadConfirm p route lap s) := by
  unfold loadConfirm
  split
  · exact .only
  next awake =>
    refine .atManifest fun r h _ => ?_
    dsimp only
    split
    next waiting => exact .of (.loadConfirm r h awake waiting)
    · exact .only

theorem cancelManifest_answers (route : Nat) (lap : Lap) : Answers s p (cancelManifest p route lap s) :=
  .atManifest fun r h live => by
    dsimp only
    split
    · exact .only
    next waiting => exact .of (.cancelManifest r h live waiting)

theorem ackLate_answers (route : Nat) : Answers s p (ackLate p route s) := by
  unfold ackLate
  split
  · exact .only
  · split
    · exact .only
    · exact .of (.late _ false)

theorem presetLate_answers (route : Nat) : Answers s p (presetLate p route s) := by
  unfold presetLate
  split
  · exact .only
  · exact .of (.late _ true)

theorem setHold_answers (route : Nat) (on : Bool) : Answers s p (setHold p route on s) := by
  unfold setHold
  split
  · exact .only
  · exact .of (.hold _ on)

theorem setGate_answers (line : Option Line) (mode : Option GateMode) : Answers s p (setGate p line mode s) := by
  unfold setGate
  split
  · exact .of (.gate _ _)
  · exact .only

theorem setDivert_answers (index : Nat) (f : WindowFields) : Answers s p (setDivert p index f s) := by
  unfold setDivert
  split
  next staged => exact .of (.divert _ f _ staged)
  · exact .only

theorem stageSlot_answers (slot : Nat) (op : StageOp SlotFields) : Answers s p (stageSlot p slot op s) := by
  unfold stageSlot
  split
  · split <;> exact .only
  next f =>
    split
    · exact .only
    · split
      next staged => exact .of (.stageSlot _ f _ staged)
      · exact .only

theorem stageUsage_answers (line : Option Line) (row : UsageRow) (first : Nat) (op : StageOp (List Nat)) :
    Answers s p (stageUsage p line row first op s) := by
  unfold stageUsage
  split
  · split <;> exact .only
  next values =>
    split
    · exact .only
    · split
      · exact .only
      · split
        next staged _ => exact .of (.stageUsage _ row _ _ values staged)
        · exact .only

theorem stageRoute_answers (route : Nat) (op : StageOp RouteFields) : Answers s p (stageRoute p route op s) := by
  unfold stageRoute
  split
  · split <;> exact .only
  next f =>
    split
    · exact .only
    · split
      next staged => exact .of (.stageRoute _ f _ staged)
      · exact .only

theorem stageWindow_answers (index : Nat) (op : StageOp WindowFields) : Answers s p (stageWindow p index op s) := by
  unfold stageWindow
  split
  · split <;> exact .only
  next f =>
    split
    · exact .only
    · split
      next staged => exact .of (.stageWindow _ f _ staged)
      · exact .only

theorem stageGlobals_answers (op : StageOp GlobalFields) : Answers s p (stageGlobals p op s) := by
  unfold stageGlobals
  split
  · exact .only
  next f =>
    split
    · exact .only
    · exact .of (.stageGlobals f)

theorem applyRequest_answers (mode : Option ApplyMode) (line : Option Line) : Answers s p (applyRequest p mode line s) := by
  unfold applyRequest
  split
  · exact .only
  · exact .only
  · split
    · exact .only
    · exact .of .apply
  · split
    · exact .only
    · exact .of (.arm _)

theorem topup_answers (slot : Nat) (n : Byte) : Answers s p (topup p slot n s) := by
  unfold topup
  split
  · exact .only
  next awake =>
    split
    · exact .only
    next i _ =>
      split
      · exact .only
      · dsimp only
        split
        · exact .only
        next running =>
          have kanban : (s.slot i).cfg.kind = .kanban := by
            cases hk : (s.slot i).cfg.kind with
            | kanban => rfl
            | sequenced => exact absurd (.inl hk) running
          have room : min n.toNat ((s.slot i).cfg.mc - (s.slot i).ordered) ≤ (s.slot i).cfg.mc - (s.slot i).ordered :=
            Nat.min_le_right ..
          split
          · exact .only
          next some =>
            split
            next line => exact .of (.topupMerged i _ awake kanban room some line)
            next line =>
              split
              next few => exact .of (.topupCreated i _ awake kanban room some (by simpa using line) few)
              · exact .of (.topupRefused i _)

theorem cancelDemand_answers (slot : Nat) : Answers s p (cancelDemand p slot s) := by
  unfold cancelDemand
  split
  · exact .only
  next i _ =>
    split
    · exact .only
    next x line => exact .of (.cancelDemand i x line)

theorem clearDiscrepancy_answers (slot : Nat) : Answers s p (clearDiscrepancy p slot s) := by
  unfold clearDiscrepancy
  split
  · exact .only
  next awake =>
    split
    · exact .only
    next i _ =>
      dsimp only
      split
      · exact .only
      next agreeing => exact .of (.clear i awake (by omega))

theorem startRequest_answers : Answers s p (startRequest p s) := by
  unfold startRequest
  split
  next cold =>
    split
    · exact .of (.startCold cold)
    · exact .only
  next standby => exact .of (.startAgain standby)
  · exact .only

theorem stopRequest_answers : Answers s p (stopRequest p s) := by
  unfold stopRequest
  split
  · exact .only
  · exact .only
  next active => exact .of (.stop active)

theorem runResetRequest_answers : Answers s p (runResetRequest p s) := by
  unfold runResetRequest
  split
  next standby => exact .of (.runReset standby)
  · exact .only
  · exact .only

end

/-- Whatever a request's owner does is an effect and the answer on the port (R166). -/
theorem takeOwner_answers {i : Instr} {p : Port} {q : Request} (hi : requestIn? i = some (p, q)) (s : State) :
    Answers s p (takeOwner i s) := by
  have read : q ∈ [Request.readStatus, .readSlot, .readRoute, .readQueue, .readManifest, .readStopLines, .readPickList,
      .readCounters] → Answers s p (takeOwner i s) := fun hq => by
    obtain ⟨st, b, e⟩ := takeOwner_read hi hq s
    rw [e]; exact .only
  cases i <;> simp only [requestIn?, Option.some.injEq, Prod.mk.injEq, reduceCtorEq] at hi <;> obtain ⟨rfl, rfl⟩ := hi
  case readNotices => exact readNotices_answers ..
  case setNoticeMode => exact setNoticeMode_answers ..
  case announce => exact announce_answers ..
  case advance => exact advance_answers ..
  case sensorSnapshot => exact sensorSnapshot_answers ..
  case depart => exact depart_answers ..
  case arrive => exact arrive_answers ..
  case drop => exact drop_answers ..
  case lapEnd => exact lapEnd_answers ..
  case beginPick => exact beginPick_answers ..
  case shortPick => exact shortPick_answers ..
  case loadConfirm => exact loadConfirm_answers ..
  case ackLate => exact ackLate_answers ..
  case stageSlot => exact stageSlot_answers ..
  case stageUsage => exact stageUsage_answers ..
  case stageRoute => exact stageRoute_answers ..
  case stageWindow => exact stageWindow_answers ..
  case stageGlobals => exact stageGlobals_answers ..
  case apply => exact applyRequest_answers ..
  case cancelApply => exact .of (.arm .idle)
  case setDivert => exact setDivert_answers ..
  case setGate => exact setGate_answers ..
  case setHold => exact setHold_answers ..
  case presetLate => exact presetLate_answers ..
  case topup => exact topup_answers ..
  case cancelDemand => exact cancelDemand_answers ..
  case cancelManifest => exact cancelManifest_answers ..
  case clearDiscrepancy => exact clearDiscrepancy_answers ..
  case start => exact startRequest_answers ..
  case stop => exact stopRequest_answers ..
  case runReset => exact runResetRequest_answers ..
  all_goals exact read (by decide)

/-- A complete frame is an effect and an answer too. -/
theorem completeFrame_answers (p : Port) (code : Byte) (payload : List Byte) (s : State) :
    Answers s p (completeFrame p code payload s) := by
  unfold completeFrame
  split
  · exact .only
  · split
    · split
      · exact .only
      next i hi => exact takeOwner_answers (readFrame_requestIn hi) s
    · exact .only

/-! ## Every command is an effect and a change of the port units -/

/-- A port unit's law and its counter's range are kept. -/
def PortUnit.Keeps (u v : PortUnit) : Prop := (u.Law → v.Law) ∧ (u.frameErrors ≤ 65535 → v.frameErrors ≤ 65535)

/-- From s to t an effect was made, and beyond it the port units moved, each keeping its law. -/
structure StepsTo (s t : State) : Prop where
  effect : ∃ u, Effect s u ∧ t = { u with ports := t.ports } ∧ ∀ p, (u.port p).Keeps (t.port p)

namespace StepsTo

variable {s u : State}

theorem of (e : Effect s u) : StepsTo s u := ⟨u, e, rfl, fun _ => ⟨id, id⟩⟩

/-- A change of one port unit alone. -/
theorem modPort {p : Port} {f : PortUnit → PortUnit} (h : (s.port p).Keeps (f (s.port p))) : StepsTo s (s.modPort p f) :=
  ⟨s, .nothing, rfl, fun k => by
    by_cases hk : k = p
    · subst hk; rwa [State.port_modPort_self]
    · rw [State.port_modPort_ne _ _ hk]; exact ⟨id, id⟩⟩

theorem ofAnswers {p : Port} {t : State} (h : Answers s p t) : StepsTo s t := by
  obtain ⟨u, st, b, e, rfl⟩ := h
  refine ⟨u, e, rfl, fun k => ?_⟩
  by_cases hk : k = p
  · subst hk; exact ⟨fun _ => reply_port_law k st b u, by rw [reply_port_self]; exact id⟩
  · rw [reply_port_ne u st b hk]; exact ⟨id, id⟩

theorem takeRequest {p : Port} {q : Request} {owner : State → State} {t : State} (h : Answers s p (owner s))
    (e : takeRequest p q s owner = .next t) : StepsTo s t := by
  cases e
  split
  · exact .of .nothing
  · split
    · exact ofAnswers h
    · exact ofAnswers .only

theorem takeEvent {event : State → State} {t : State} (h : StepsTo s (event s)) (e : takeEvent s event = .next t) :
    StepsTo s t := by
  cases e
  split
  · exact .of .nothing
  · exact h

end StepsTo

theorem bump_le (n : Nat) : bump n ≤ 65535 := Nat.min_le_right ..

theorem PortUnit.countError_errors (u : PortUnit) : u.countError.frameErrors ≤ 65535 := bump_le _

theorem receive_steps (s : State) (p : Port) (byte : Byte) (hs : (s.port p).selected = true) :
    StepsTo s (s.receive p byte) := by
  unfold State.receive
  split
  · exact .modPort ⟨fun _ => PortUnit.law_of_selected hs fun _ _ _ h => (nomatch h), id⟩
  · split
    · exact .ofAnswers (completeFrame_answers ..)
    next nonzero =>
      split
      next short =>
        have : byte.toNat ≠ 0 := fun h => nonzero (BitVec.eq_of_toNat_eq h)
        exact .modPort ⟨fun _ => PortUnit.payload_law hs (by simp; omega) short _, id⟩
      · exact .modPort ⟨fun _ => PortUnit.law_of_selected hs fun _ _ _ h => (nomatch h), fun _ => bump_le _⟩
  next code declared got hr =>
    split
    next more =>
      exact .modPort ⟨fun law => PortUnit.payload_law hs (by simpa using more) (law.payload _ _ _ hr).2 _, id⟩
    · exact .ofAnswers (completeFrame_answers ..)
  · exact .modPort ⟨fun _ => PortUnit.law_of_selected hs fun _ _ _ h => (nomatch h), id⟩
  · exact .modPort ⟨fun _ => PortUnit.law_of_selected hs fun _ _ _ h => (nomatch h), id⟩

theorem PortUnit.rise_keeps (u : PortUnit) : u.Keeps u.rise :=
  ⟨fun _ => u.rise_law, fun h => by
    rw [PortUnit.rise_eq]
    dsimp only
    split
    · exact bump_le _
    · exact bump_le _
    all_goals exact h⟩

theorem frameDiscard_steps (s : State) (p : Port) (cause : DiscardCause) :
    StepsTo s (s.modPort p fun u => match cause with
      | .chipSelect => u.countError.deselect
      | .overlong _ => { u.countError with selected := true, rx := .discard, sent := some fill }) := by
  cases cause with
  | chipSelect => exact .modPort ⟨fun _ => PortUnit.deselect_law _, fun _ => bump_le _⟩
  | overlong n => exact .modPort ⟨fun _ => PortUnit.law_of_selected rfl fun _ _ _ h => (nomatch h), fun _ => bump_le _⟩

theorem whenDue_steps {s : State} {r : RouteId} {e : RouteEvent} {k : State → RouteId → State}
    (h : (s.route r).due = some e → Effect s (k s r)) : StepsTo s (s.whenDue r e k) := by
  unfold State.whenDue
  split
  next due => exact .of (h due)
  · exact .of .nothing

theorem decisecond_steps (s : State) : StepsTo s s.decisecond := by
  unfold State.decisecond
  split
  next active => exact .of (.decisecond active)
  · exact .of .nothing

/-- With RESET_N low, no request is taken (R180). -/
theorem exec_request_inReset {i : Instr} {pq : Port × Request} {s : State} (hi : requestIn? i = some pq)
    (hs : s.resetN = .low) : exec i s = .next s := by
  cases i <;> simp only [requestIn?, reduceCtorEq] at hi <;> exact takeRequest_inReset hs

/-- Every command is one effect and a lawful change of the port units. -/
theorem exec_steps {i : Instr} {s t : State} (h : exec i s = .next t) : StepsTo s t := by
  cases hi : requestIn? i with
  | some pq =>
    obtain ⟨p, q⟩ := pq
    cases hs : s.resetN with
    | high =>
      cases hp : permitted p q with
      | true => rw [exec_request hi hs hp] at h; cases h; exact .ofAnswers (takeOwner_answers hi s)
      | false => rw [exec_forbidden hi hs hp] at h; cases h; exact .ofAnswers .only
    | low =>
      rw [exec_request_inReset hi hs] at h; cases h; exact .of .nothing
  | none =>
    cases i <;> simp only [requestIn?, reduceCtorEq] at hi
    case powerOn => cases h; exact .of (.powerOn s.resetN)
    case resetN v =>
      cases h
      split
      · exact .of .nothing
      · exact .of (.powerOn v)
    case runEdge l v =>
      cases h
      split
      · exact .of .nothing
      · exact .of (.edge l v)
    case decisecondEnd => exact .takeEvent (decisecond_steps s) h
    case wrap r => exact .takeEvent (whenDue_steps (.wrap r)) h
    case buildPoint r => exact .takeEvent (whenDue_steps (.build r)) h
    case departurePoint r => exact .takeEvent (whenDue_steps (.departure r)) h
    case skippedPoint r => exact .takeEvent (whenDue_steps (.skipped r)) h
    case frameDiscard p cause =>
      rw [exec, execFrameDiscard] at h
      exact .takeEvent (frameDiscard_steps s p cause) h
    case unknown p code payload => exact .takeEvent (.ofAnswers (completeFrame_answers p code payload s)) h
    case csNFall p =>
      rw [exec, execCsNFall] at h
      exact .takeEvent (.modPort ⟨fun _ => PortUnit.select_law _, id⟩) h
    case byteReceived p byte =>
      rw [exec, execByteReceived] at h
      refine .takeEvent ?_ h
      split
      next hs => exact receive_steps s p byte hs
      · exact .of .nothing
    case transactionEnd p =>
      rw [exec, execTransactionEnd] at h
      refine .takeEvent ?_ h
      split
      · exact .modPort (PortUnit.rise_keeps _)
      · exact .of .nothing

end Sys2Proof.Machine
end

section
/-!
PROOFS: the work on slots and demand that keeps the tables, the counters, the notice queues and each record's own laws. Every
operation of chapters 1 to 3 and 8 is such work; the invariants of O6, O7 and O9 follow from this one relation.
-/

namespace Sys2Proof.Machine

open Sys2Proof

/-- A slot's three statistics counters are within 16 bits. -/
def Slot.CountersIn (x : Slot) : Prop := x.shortfalls ≤ 65535 ∧ x.overfills ≤ 65535 ∧ x.resyncs ≤ 65535

/-- From x to y a record keeps its configuration and its own laws. -/
structure Slot.Keeps (x y : Slot) : Prop where
  cfg : y.cfg = x.cfg
  estimate : x.EstimateLaw → y.EstimateLaw
  checker : x.CheckerLaw → y.CheckerLaw
  counters : x.CountersIn → y.CountersIn

/-- From d to e the demand queue keeps its globals and its counters' range. -/
structure DemandQueue.Keeps (d e : DemandQueue) : Prop where
  ageStep : e.ageStep = d.ageStep
  watermark : e.watermark = d.watermark
  dropped : d.returnsDropped ≤ 65535 → e.returnsDropped ≤ 65535
  refused : d.ordersRefused ≤ 65535 → e.ordersRefused ≤ 65535

/-- From s to t slots, demand and notices were worked on, each part keeping its own laws. -/
structure Work (s t : State) : Prop where
  rest : t = { s with slots := t.slots, demand := t.demand, queues := t.queues }
  slot : ∀ i, (s.slot i).Keeps (t.slot i)
  demand : s.demand.Keeps t.demand
  notices : (∀ p, (s.queue p).Law) → ∀ p, (t.queue p).Law
  lost : (∀ p, (s.queue p).lost ≤ 65535) → ∀ p, (t.queue p).lost ≤ 65535

/-! ## One record -/

theorem Slot.Keeps.refl (x : Slot) : x.Keeps x := ⟨rfl, id, id, id⟩

theorem Slot.Keeps.trans {x y z : Slot} (h : x.Keeps y) (k : y.Keeps z) : x.Keeps z :=
  ⟨k.cfg.trans h.cfg, k.estimate ∘ h.estimate, k.checker ∘ h.checker, k.counters ∘ h.counters⟩

/-- A change of a record's orders that leaves a SEQUENCED slot's at rest (R8, R9). -/
theorem Slot.keeps_orders {x : Slot} {n : Nat} {b : Bool}
    (rest : x.cfg.kind = .sequenced → x.EstimateLaw → n = 0 ∧ b = false) :
    x.Keeps { x with ordered := n, blocked := b } where
  cfg := rfl
  estimate law := {
    range := law.range
    empty := law.empty
    sequenced := fun hk => by
      obtain ⟨rfl, rfl⟩ := rest hk law
      have e := law.sequenced hk
      show ({ x with ordered := 0, blocked := false } : Slot) = _
      rw [e]
    unanchored := law.unanchored }
  checker law := ⟨law.count, law.kind, law.withheld, law.declared⟩
  counters := id

theorem Slot.EstimateLaw.atRest {x : Slot} (h : x.EstimateLaw) (hk : x.cfg.kind = .sequenced) :
    x.ordered = 0 ∧ x.blocked = false := by
  rw [h.sequenced hk]; exact ⟨rfl, rfl⟩

theorem Slot.keeps_lower (x : Slot) (n : Nat) : x.Keeps { x with ordered := x.ordered - n } :=
  keeps_orders fun hk law => ⟨by rw [(law.atRest hk).1, Nat.zero_sub], (law.atRest hk).2⟩

theorem Slot.keeps_unblock (x : Slot) : x.Keeps { x with blocked := false } :=
  keeps_orders fun hk law => ⟨(law.atRest hk).1, rfl⟩

theorem Slot.keeps_kanbanOrders {x : Slot} (hk : x.cfg.kind = .kanban) (n : Nat) (b : Bool) :
    x.Keeps { x with ordered := n, blocked := b } :=
  keeps_orders fun hk' => absurd (hk.symm.trans hk') (by decide)

/-- A change of a record's marks that leaves UNANCHORED ones so (R28). -/
theorem Slot.keeps_marks (x : Slot) (f : Marks → Marks) : x.Keeps { x with marks := x.marks.map f } where
  cfg := rfl
  estimate law := {
    range := law.range
    empty := law.empty
    sequenced := fun hk => by
      have e := law.sequenced hk
      rw [e]
    unanchored := fun hk => by simp [law.unanchored hk] }
  checker law := ⟨law.count, law.kind, law.withheld, law.declared⟩
  counters := id

/-- A change of a KANBAN record's estimate, SHORT and counters (R14 to R16). -/
theorem Slot.keeps_estimate {x : Slot} (hk : x.cfg.kind = .kanban) {oh sf of_ : Nat} {short : Bool}
    (range : x.oh ≤ x.cfg.fullMp → oh ≤ x.cfg.fullMp) (empty : (x.short = true → x.oh = 0) → short = true → oh = 0)
    (counters : x.CountersIn → sf ≤ 65535 ∧ of_ ≤ 65535) :
    x.Keeps { x with oh := oh, short := short, shortfalls := sf, overfills := of_ } where
  cfg := rfl
  estimate law := ⟨fun _ => range (law.range hk), empty law.empty, fun hk' => absurd (hk.symm.trans hk') (by decide),
    law.unanchored⟩
  checker law := ⟨law.count, law.kind, law.withheld, law.declared⟩
  counters h := ⟨(counters h).1, (counters h).2, h.2.2⟩

theorem bump_if_le {p : Prop} [Decidable p] {n : Nat} (h : n ≤ 65535) : (if p then bump n else n) ≤ 65535 := by
  split
  · exact bump_le n
  · exact h

/-- A draw's charge on a KANBAN record (R14, R15). -/
theorem Slot.keeps_drawn {x : Slot} (hk : x.cfg.kind = .kanban) (d : Nat) : x.Keeps (x.drawn d) :=
  keeps_estimate (short := x.short) (of_ := x.overfills) hk (fun h => (Nat.sub_le ..).trans h)
    (fun h hs => by rw [h hs, Nat.zero_sub]) fun h => ⟨bump_if_le h.1, h.2.1⟩

theorem Slot.keeps_short {x : Slot} (hk : x.cfg.kind = .kanban) (h0 : x.oh = 0) : x.Keeps { x with short := true } :=
  keeps_estimate (oh := x.oh) (sf := x.shortfalls) (of_ := x.overfills) hk id (fun _ _ => h0) fun h => ⟨h.1, h.2.1⟩

/-- A delivered bin on a KANBAN record (R16). -/
theorem Slot.keeps_delivered {x : Slot} (hk : x.cfg.kind = .kanban) : x.Keeps x.delivered :=
  .trans
    (keeps_estimate (oh := x.delivered.oh) (short := x.delivered.short) (sf := x.shortfalls) (of_ := x.delivered.overfills) hk
      (fun _ => Nat.min_le_right ..) (fun _ hs => by simp only [Slot.delivered, Bool.and_eq_true, decide_eq_true_eq] at hs; exact hs.2)
      fun h => ⟨h.1, bump_if_le h.2.1⟩)
    (keeps_kanbanOrders (x := { x with
      oh := x.delivered.oh, short := x.delivered.short, overfills := x.delivered.overfills }) hk (x.ordered - 1) x.blocked)

/-! ## Elementary work -/

theorem DemandQueue.Keeps.refl (d : DemandQueue) : d.Keeps d := ⟨rfl, rfl, id, id⟩

theorem DemandQueue.Keeps.trans {d e f : DemandQueue} (h : d.Keeps e) (k : e.Keeps f) : d.Keeps f :=
  ⟨k.ageStep.trans h.ageStep, k.watermark.trans h.watermark, k.dropped ∘ h.dropped, k.refused ∘ h.refused⟩

namespace Work

variable {s t u : State}

theorem refl (s : State) : Work s s := ⟨rfl, fun _ => .refl _, .refl _, id, id⟩

theorem trans (h : Work s t) (k : Work t u) : Work s u :=
  ⟨by rw [k.rest, h.rest], fun i => (h.slot i).trans (k.slot i), h.demand.trans k.demand, k.notices ∘ h.notices, k.lost ∘ h.lost⟩

theorem raise (s : State) (e : Event) : Work s (s.raise e) :=
  ⟨rfl, fun _ => .refl _, .refl _, fun h => State.raise_law h e, fun h => State.raise_lost h e⟩

theorem modDemand {f : DemandQueue → DemandQueue} (h : s.demand.Keeps (f s.demand)) : Work s (s.modDemand f) :=
  ⟨rfl, fun _ => .refl _, h, id, id⟩

theorem modSlot {i : SlotId} {f : Slot → Slot} (h : (s.slot i).Keeps (f (s.slot i))) : Work s (s.modSlot i f) :=
  ⟨rfl, fun j => by
    by_cases hj : j = i
    · subst hj; rwa [State.slot_modSlot_self]
    · rw [State.slot_modSlot_ne _ _ hj]; exact .refl _, .refl _, id, id⟩

theorem cfg (h : Work s t) (i : SlotId) : (t.slot i).cfg = (s.slot i).cfg := (h.slot i).cfg
theorem routes (h : Work s t) : t.routes = s.routes := by rw [h.rest]
theorem usage (h : Work s t) : t.usage = s.usage := by rw [h.rest]
theorem image (h : Work s t) : t.image = s.image := by rw [h.rest]
theorem coverage (h : Work s t) : t.coverage = s.coverage := by rw [h.rest]
theorem diverts (h : Work s t) : t.diverts = s.diverts := by rw [h.rest]
theorem ports (h : Work s t) : t.ports = s.ports := by rw [h.rest]
theorem seqs (h : Work s t) : t.seqs = s.seqs := by rw [h.rest]
theorem mode (h : Work s t) : t.mode = s.mode := by rw [h.rest]
theorem route (h : Work s t) (r : RouteId) : t.route r = s.route r := by unfold State.route; rw [h.routes]

/-- A pass of such work over anything. -/
theorem foldl {α : Type} {f : State → α → State} (h : ∀ s a, Work s (f s a)) (as : List α) (s : State) :
    Work s (as.foldl f s) := by
  induction as generalizing s with
  | nil => exact refl s
  | cons a as ih => exact (h s a).trans (ih _)

/-- A pass over KANBAN slots, whose kinds the work keeps. -/
theorem foldl_kanban {f : State → SlotId → State} (h : ∀ s i, (s.slot i).cfg.kind = .kanban → Work s (f s i)) :
    ∀ (is : List SlotId) (s : State), (∀ i ∈ is, (s.slot i).cfg.kind = .kanban) → Work s (is.foldl f s)
  | [], s, _ => refl s
  | i :: is, s, hk => by
    have first : Work s (f s i) := h s i (hk i List.mem_cons_self)
    refine first.trans (foldl_kanban h is _ fun j hj => ?_)
    rw [first.cfg]
    exact hk j (List.mem_cons_of_mem _ hj)

end Work

/-! ## The demand queue's operations -/

section

variable (s : State) (i : SlotId) (n : Nat) (cls : DemandClass)

theorem lowerOrdered_work : Work s (s.lowerOrdered i n) := .modSlot (Slot.keeps_lower _ n)

theorem unblock_work : Work s (s.modSlot i fun x => { x with blocked := false }) := .modSlot (Slot.keeps_unblock _)

theorem removeOpen_work : Work s (s.removeOpen i) := .modDemand ⟨rfl, rfl, id, id⟩

theorem modOpen_work (f : DemandLine → DemandLine) : Work s (s.modOpen i f) := .modDemand ⟨rfl, rfl, id, id⟩

theorem takeOpen_work : Work s (s.takeOpen i n) := by
  unfold State.takeOpen
  split
  · exact removeOpen_work s i
  · exact modOpen_work s i _

theorem countDropped_work : Work s (s.countDropped n) := .modDemand ⟨rfl, rfl, fun _ => Nat.min_le_right .., id⟩

theorem judgeHigh_work : Work s (s.judgeHigh i) := by
  unfold State.judgeHigh
  split
  · exact (Work.raise s _).trans (.modDemand ⟨rfl, rfl, id, id⟩)
  · exact .refl s

theorem createOpen_work : Work s (s.createOpen i n cls) := by
  unfold State.createOpen
  dsimp only
  have created : Work s ((s.modDemand fun d =>
      { d with lines := d.lines ++ [⟨i, n, cls, s.plant, 0, (s.mapSlot i).isNone⟩] }).modSlot i
      fun x => { x with blocked := false }) :=
    (Work.modDemand ⟨rfl, rfl, id, id⟩).trans (unblock_work _ i)
  refine .trans ?_ (judgeHigh_work _ i)
  split
  · exact created.trans (.raise _ _)
  · exact created

theorem refuseLine_work (cause : FullCause) : Work s (s.refuseLine i cause n) := by
  unfold State.refuseLine
  split
  · exact (Work.raise s _).trans (.modDemand ⟨rfl, rfl, id, id⟩)
  · exact .refl s

theorem placeReturn_work : Work s (s.placeReturn i n cls) := by
  unfold State.placeReturn
  split
  · exact modOpen_work s i _
  · split
    · exact createOpen_work s i n cls
    · exact ((lowerOrdered_work s i n).trans (countDropped_work _ n)).trans (refuseLine_work _ i n _)

theorem returnBins_work : Work s (s.returnBins i n cls) := by
  unfold State.returnBins
  dsimp only
  have trimmed (k : Nat) : Work s ((s.lowerOrdered i k).countDropped k) :=
    (lowerOrdered_work s i k).trans (countDropped_work _ k)
  split
  · exact countDropped_work s n
  · exact trimmed n
  · split
    · split
      · exact trimmed _
      · exact (trimmed _).trans (placeReturn_work ..)
    · exact placeReturn_work ..

theorem cancelOpen_work : Work s (s.cancelOpen i n) := by
  unfold State.cancelOpen
  dsimp only
  split
  · exact .refl s
  · exact (takeOpen_work ..).trans (lowerOrdered_work ..)

theorem retestUncovered_work : Work s s.retestUncovered := by
  unfold State.retestUncovered
  exact (Work.modDemand ⟨rfl, rfl, id, id⟩).trans (.foldl (fun _ _ => .raise ..) _ _)

variable {s i}

theorem raiseOrdered_work (hk : (s.slot i).cfg.kind = .kanban) : Work s (s.raiseOrdered i n) :=
  .modSlot (Slot.keeps_kanbanOrders hk _ _)

theorem order_work (hk : (s.slot i).cfg.kind = .kanban) : Work s (s.order i n) := by
  unfold State.order
  split
  · have merged : Work s (s.mergeOpen i n .kanban) := modOpen_work s i _
    exact (merged.trans (raiseOrdered_work n (by rw [merged.cfg]; exact hk))).trans (unblock_work _ i)
  · split
    · have created : Work s (s.createOpen i n .kanban) := createOpen_work s i n _
      exact created.trans (raiseOrdered_work n (by rw [created.cfg]; exact hk))
    · have refused : Work s (s.modDemand fun d => { d with ordersRefused := bump d.ordersRefused }) :=
        .modDemand ⟨rfl, rfl, id, fun _ => bump_le _⟩
      have blocked := Work.modSlot (s := s.modDemand fun d => { d with ordersRefused := bump d.ordersRefused }) (i := i)
        (f := fun x => { x with blocked := true }) (Slot.keeps_kanbanOrders hk _ true)
      exact (refused.trans blocked).trans (refuseLine_work ..)

end

/-! ## Slots, racks and lines handed back -/

section

variable (s : State) (i : SlotId)

theorem evaluate_work : Work s (s.evaluate i) := by
  unfold State.evaluate
  dsimp only
  split
  · exact .refl s
  next hk =>
    have kanban : (s.slot i).cfg.kind = .kanban := by cases e : (s.slot i).cfg.kind <;> simp_all
    split
    · exact unblock_work s i
    · split
      · exact unblock_work s i
      · exact order_work _ kanban

theorem rollback_work : Work s (s.rollback i) := .modSlot (Slot.keeps_marks _ _)

theorem coverThrough_work (last : SeqNo) : Work s (s.coverThrough i last) := .modSlot (Slot.keeps_marks _ _)

theorem deliverRack_work (last : SeqNo) : Work s (s.deliverRack i last) := .modSlot (Slot.keeps_marks _ _)

theorem deliverBin_work : Work s (s.deliverBin i) := by
  unfold State.deliverBin
  split
  · exact .refl s
  next hk =>
    have kanban : (s.slot i).cfg.kind = .kanban := by cases e : (s.slot i).cfg.kind <;> simp_all
    exact (Work.modSlot (Slot.keeps_delivered kanban)).trans (evaluate_work _ i)

theorem deliverLine_work (x : ManifestLine) : Work s (s.deliverLine x) := by
  unfold State.deliverLine
  split
  · exact deliverBin_work ..
  · exact deliverRack_work ..

theorem returnLine_work (x : ManifestLine) (n : Nat) (cls : DemandClass) : Work s (s.returnLine x n cls) := by
  unfold State.returnLine
  split
  · split
    · exact .refl s
    · exact returnBins_work ..
  · exact rollback_work ..

theorem foldl_returnPlanned_work (cls : ManifestLine → DemandClass) (xs : List ManifestLine) :
    Work s (xs.foldl (State.returnPlanned cls) s) :=
  .foldl (fun _ _ => returnLine_work ..) xs s

theorem tellReturned_work (r : RouteId) (lap : Lap) (cause : ReturnCause) (n : Nat) :
    Work s (s.tellReturned r lap cause n) := by
  unfold State.tellReturned
  split
  · exact .refl s
  · exact .raise ..

variable {s i}

theorem drawSlot_work (v : Variant) (seq : SeqNo) (hk : (s.slot i).cfg.kind = .kanban) :
    Work s (State.drawSlot v seq s i) := by
  unfold State.drawSlot State.applyDraw
  split
  · exact .refl s
  · dsimp only
    have drawn : Work s (s.modSlot i fun x => x.drawn (s.draw i v)) := .modSlot (Slot.keeps_drawn hk _)
    refine .trans ?_ (evaluate_work _ i)
    split
    next empty =>
      refine (drawn.trans (.modSlot (Slot.keeps_short ?_ ?_))).trans (.raise _ _)
      · rw [drawn.cfg]; exact hk
      · rw [State.slot_modSlot_self]; exact empty.1
    · exact drawn

theorem drawLine_work (s : State) (l : Line) (v : Variant) (seq : SeqNo) : Work s (s.drawLine l v seq) := by
  unfold State.drawLine
  split
  · exact .refl s
  · refine .foldl_kanban (fun _ _ => drawSlot_work v seq) _ s fun i hi => ?_
    have drawnBy : (s.slot i).drawnBy l = true := by simpa using hi
    simp only [Slot.drawnBy, Bool.and_eq_true, beq_iff_eq] at drawnBy
    exact drawnBy.1.1

theorem starveLine_work (s : State) (l : Line) (v : Variant) (case : AdvanceCase) (seq : SeqNo) :
    Work s (s.starveLine l v case seq) := by
  rw [State.starveLine_eq]
  exact .foldl (fun _ _ => .raise ..) _ s

end

/-! ## The sensor checker -/

/-- A comparison short of four keeps a KANBAN record's laws (R146). -/
theorem Slot.moved_keeps {x : Slot} (hk : x.cfg.kind = .kanban) {result : Option DiscKind}
    (short : ∀ k, result = some k → ¬(x.disCount = 3 ∧ x.disKind = some k)) : x.Keeps (x.moved result) where
  cfg := by unfold Slot.moved; split <;> [rfl; (split <;> rfl)]
  estimate law := by
    unfold Slot.moved
    split
    · exact ⟨law.range, law.empty, fun hk' => absurd (hk.symm.trans hk') (by decide), law.unanchored⟩
    · split <;> exact ⟨law.range, law.empty, fun hk' => absurd (hk.symm.trans hk') (by decide), law.unanchored⟩
  checker law := by
    have same : (x.moved result).withheld = x.withheld ∧ (x.moved result).discrepant = x.discrepant := by
      unfold Slot.moved; split <;> [exact ⟨rfl, rfl⟩; (split <;> exact ⟨rfl, rfl⟩)]
    obtain ⟨le, kind, zero⟩ := x.moved_count result
    refine ⟨le, by rw [zero, kind], by rw [same.1, same.2]; exact law.withheld, fun h4 => ?_⟩
    rw [same.2]
    cases result with
    | none => rw [zero.2 rfl] at h4; cases h4
    | some k =>
      obtain ⟨hd, h3⟩ := (x.moved_four k).1 h4
      have := law.count
      have : x.disCount ≠ 3 := fun e => short k rfl ⟨e, hd⟩
      exact law.declared (by omega)
  counters h := by unfold Slot.moved; split <;> [exact h; (split <;> exact h)]

/-- Reaching four with the flag set keeps a KANBAN record's laws (R146, R147). -/
theorem Slot.declared_keeps {x : Slot} (hk : x.cfg.kind = .kanban) (k : DiscKind) :
    x.Keeps { x.moved (some k) with discrepant := some k } where
  cfg := by unfold Slot.moved; dsimp only; split <;> rfl
  estimate law := by
    unfold Slot.moved
    dsimp only
    split <;> exact ⟨law.range, law.empty, fun hk' => absurd (hk.symm.trans hk') (by decide), law.unanchored⟩
  checker law := by
    obtain ⟨le, kind, zero⟩ := x.moved_count (some k)
    exact ⟨le, by rw [zero, kind], fun _ h => (nomatch h), fun _ h => (nomatch h)⟩
  counters h := by unfold Slot.moved; dsimp only; split <;> exact h

/-- A resync of a KANBAN record (R149). -/
theorem Slot.resynced_keeps {x : Slot} (hk : x.cfg.kind = .kanban) : x.Keeps x.resynced where
  cfg := rfl
  estimate law := ⟨fun _ => Nat.min_le_right .., fun h => by
    simp only [Slot.resynced, Bool.and_eq_true, decide_eq_true_eq] at h; exact h.2,
    fun hk' => absurd (hk.symm.trans hk') (by decide), law.unanchored⟩
  checker law := ⟨Nat.zero_le _, by simp [Slot.resynced], law.withheld, fun h => nomatch h⟩
  counters h := ⟨h.1, h.2.1, bump_le _⟩

/-- Two changes of one record are one. -/
theorem State.modSlot_modSlot (s : State) (i : SlotId) (f g : Slot → Slot) :
    (s.modSlot i f).modSlot i g = s.modSlot i fun x => g (f x) := by
  simp [State.modSlot]

theorem actPolicy_work {s : State} {i : SlotId} (hk : (s.slot i).cfg.kind = .kanban)
    (hd : (s.slot i).discrepant ≠ none) : Work s (s.actPolicy i) := by
  unfold State.actPolicy
  split
  · exact .refl s
  · exact (Work.modSlot (Slot.resynced_keeps hk)).trans (evaluate_work _ i)
  · exact .modSlot ⟨rfl, fun law => ⟨law.range, law.empty, fun hk' => absurd (hk.symm.trans hk') (by decide), law.unanchored⟩,
      fun law => ⟨law.count, law.kind, fun _ => hd, law.declared⟩, id⟩

theorem reachFour_work {s : State} {i : SlotId} (hk : (s.slot i).cfg.kind = .kanban) (k : DiscKind) :
    Work s ((s.modSlot i fun x => x.moved (some k)).reachFour i k) := by
  unfold State.reachFour
  dsimp only
  rw [State.modSlot_modSlot]
  have declared : Work s (s.modSlot i fun x => { x.moved (some k) with discrepant := some k }) :=
    .modSlot (Slot.declared_keeps hk k)
  have flagged : ((s.modSlot i fun x => { x.moved (some k) with discrepant := some k }).slot i).discrepant ≠ none := by
    rw [State.slot_modSlot_self]; exact fun h => nomatch h
  have kanban := (declared.cfg i).symm ▸ hk
  split
  · exact (declared.trans (.raise _ _)).trans (actPolicy_work kanban flagged)
  · exact declared.trans (actPolicy_work kanban flagged)

theorem checkSlot_work (states : Vector SensorState 32) {w : SnapshotWork} {i : SlotId}
    (hk : (w.st.slot i).cfg.kind = .kanban) : Work w.st (checkSlot states w i).st := by
  cases hn : (w.st.slot i).cfg.sensor with
  | none =>
    have e : checkSlot states w i = w := by unfold checkSlot; dsimp only; rw [hn]
    rw [e]; exact .refl _
  | some n =>
    obtain ⟨agree, e⟩ | ⟨k, disagree, short, e⟩ | ⟨k, disagree, -, -, e⟩ := checkSlot_cases states w hn <;> rw [e] <;> dsimp only
    · rw [agree]
      exact .modSlot (Slot.moved_keeps hk fun k h => nomatch h)
    · rw [disagree]
      exact .modSlot (Slot.moved_keeps hk fun k' h => by cases h; exact short)
    · rw [disagree]
      exact reachFour_work hk k

theorem foldl_checkSlot_work (states : Vector SensorState 32) :
    ∀ (is : List SlotId) (w : SnapshotWork), (∀ i ∈ is, (w.st.slot i).cfg.kind = .kanban) →
      Work w.st (is.foldl (checkSlot states) w).st
  | [], w, _ => .refl w.st
  | i :: is, w, hk => by
    have first : Work w.st (checkSlot states w i).st := checkSlot_work states (hk i List.mem_cons_self)
    refine first.trans (foldl_checkSlot_work states is _ fun j hj => ?_)
    rw [first.cfg]
    exact hk j (List.mem_cons_of_mem _ hj)

theorem snapshot_work (s : State) (bank : Nat) (states : Vector SensorState 32) :
    Work s ((s.slotsWhere (Slot.checkedBy bank)).foldl (checkSlot states) ⟨s, 0, 0⟩).st :=
  foldl_checkSlot_work states _ ⟨s, 0, 0⟩ fun i hi => by
    have checked : (s.slot i).checkedBy bank = true := by simpa using hi
    simp only [Slot.checkedBy, Bool.and_eq_true, beq_iff_eq] at checked
    exact checked.1.1

theorem clearSlot_work {s : State} {i : SlotId} (hc : (s.slot i).disCount = 0) : Work s (s.clearSlot i) := by
  refine .trans (.modSlot ⟨rfl, fun law => ⟨law.range, law.empty, fun hk => ?_, law.unanchored⟩,
    fun law => ⟨law.count, law.kind, fun h => absurd h Bool.false_ne_true, fun h => ?_⟩, id⟩) (evaluate_work _ i)
  · show ({ s.slot i with discrepant := none, withheld := false } : Slot) = _
    rw [law.sequenced hk]
    rfl
  · exact absurd (hc.symm.trans h) (by decide)

/-! ## The builder -/

theorem considerRack_work (r : RouteId) (w : BuildWork) (i : SlotId) : Work w.st (considerRack r w i).st := by
  obtain e | ⟨stop, k, -, -, -, -, -, e⟩ := considerRack_cases r w i <;> rw [e]
  · exact .refl _
  · exact coverThrough_work ..

theorem considerBin_work (w : BuildWork) (d : DemandLine) : Work w.st (considerBin w d).st := by
  obtain e | ⟨route, stop, k, -, -, -, -, e⟩ := considerBin_cases w d <;> rw [e]
  · exact .refl _
  · exact takeOpen_work ..

theorem Work.foldl_build {α : Type} {f : BuildWork → α → BuildWork} (h : ∀ w a, Work w.st (f w a).st) (as : List α)
    (w : BuildWork) : Work w.st (as.foldl f w).st := by
  induction as generalizing w with
  | nil => exact .refl _
  | cons a as ih => exact (h w a).trans (ih _)

theorem selectLoad_work (s : State) (r : RouteId) : Work s (s.selectLoad r).st := by
  unfold State.selectLoad
  dsimp only
  have racks := Work.foldl_build (considerRack_work r) (s.slotsWhere Slot.rackable) ⟨s, (s.route r).cfg.caps, []⟩
  exact (racks.trans (Work.foldl_build considerBin_work _ _)).trans (.modDemand ⟨rfl, rfl, id, id⟩)

end Sys2Proof.Machine
end

section
/-!
PROOFS about the resets: the power-on state keeps every law (O5), and POWER_ON, RESET_N and a low RESET_N do what R180 says (O4).
-/

namespace Sys2Proof.Machine

open Sys2Proof

/-! ## The power-on values keep every law -/

theorem defaultTiming_inRange : ({} : RouteTiming).InRange where
  period_low := by decide
  period_high := by decide
  build := by decide
  depart := by decide

theorem defaultSlot_inRange : ({} : SlotConfig).InRange where
  allowance := by decide
  cq_low := by decide
  cq_high := by decide
  mc_low := by decide
  mc_high := by decide
  band := by decide
  rack_low := by decide
  rack_high := by decide
  lead := by decide

theorem defaultSlot_bounded : ({} : SlotConfig).Bounded :=
  ⟨by decide, by decide, fun n h => by cases h; decide⟩

theorem defaultWindow_inRange : ({} : Window).InRange := ⟨by decide, fun _ h => nomatch h⟩

section

variable {t : State} (h : t.AtPowerOn)

include h

theorem State.AtPowerOn.routeCfg (r : RouteId) : (t.route r).cfg = {} := by
  obtain ⟨caps, stops, mode, mask⟩ := h.lapFields r
  have timing := h.timing r
  cases e : (t.route r).cfg
  simp only [e] at caps stops mode mask timing
  subst caps stops mode mask timing
  rfl

theorem State.AtPowerOn.routeCfg_inRange (r : RouteId) : (t.route r).cfg.InRange := by
  rw [h.routeCfg r]
  exact ⟨defaultTiming_inRange, by decide, by decide, by decide, by decide, by decide⟩

theorem State.AtPowerOn.usage_inRange (l : Line) : (t.usage.get l).InRange where
  entry v g := by rw [(h.usage l v g).1]; decide
  gap g := (h.usage l 0 g).1
  allowance g := by rw [(h.usage l 0 g).2]; decide

theorem State.AtPowerOn.slot (i : SlotId) : t.slot i = {} := h.slots i

theorem State.AtPowerOn.tables : t.TablesLaw := by
  obtain ⟨slots, usage, age, high, routes, windows⟩ := h.image
  have cfg : ∀ i : SlotId, (t.slot i).cfg = {} := fun i => by rw [h.slot i]
  have coverage : ∀ k : Fin 12, t.coverage[k].InRange := fun k => by rw [h.coverage k]; exact defaultWindow_inRange
  exact {
    stagedSlots := fun i => by rw [slots i, cfg i]; exact defaultSlot_inRange
    stagedUsage := fun l => by rw [usage]; exact h.usage_inRange l
    stagedRoutes := fun r => by rw [routes r]; exact h.routeCfg_inRange r
    stagedWindows := fun k => by rw [windows]; exact coverage k
    stagedAge := by rw [age, h.demand]; decide
    stagedHigh := by rw [high, h.demand]; decide
    slots := fun i => by rw [cfg i]; exact defaultSlot_inRange
    bounds := fun i _ => by rw [cfg i]; exact defaultSlot_bounded
    usage := h.usage_inRange
    routes := h.routeCfg_inRange
    coverage := coverage
    diverts := fun k => by rw [h.diverts k]; exact defaultWindow_inRange
    age := by rw [h.demand]; decide
    high := by rw [h.demand]; decide }

theorem State.AtPowerOn.free (r : RouteId) (k : Half) : ((t.route r).buffers.get k).state = .free := (h.buffers r k).1

theorem State.AtPowerOn.noneLive (r : RouteId) : (t.route r).liveHalves = [] := Route.liveHalves_eq_nil (h.free r)

theorem State.AtPowerOn.train (r : RouteId) : (t.route r).TrainLaw := by
  obtain ⟨pointer, current, -⟩ := h.laps r
  have waiting : ∀ k, ((t.route r).buffers.get k).state ≠ .onRoute := fun k e => by
    have := h.free r k
    rw [e] at this; cases this
  exact {
    oneTrain := fun both => waiting .lower both.1
    atRest := fun _ _ => ⟨pointer, current⟩
    pointer := by rw [pointer, current]; rfl
    onLoop := fun k e => absurd e (waiting k)
    notLeft := fun k live => absurd (h.free r k) ((Buffer.live_iff _).1 live) }

theorem State.AtPowerOn.binsOut (i : SlotId) : t.binsOut i = 0 := by
  unfold State.binsOut
  simp [h.noneLive]

theorem State.AtPowerOn.racksOut (i : SlotId) : t.racksOut i = [] := by
  unfold State.racksOut
  simp [h.noneLive]

theorem State.AtPowerOn.manifest (seen : ∀ r k, (t.buffer r k).seen ≤ 2) (r : RouteId) (k : Half) :
    (t.buffer r k).ManifestLaw := by
  obtain ⟨free, lines⟩ := h.buffers r k
  have idle : ¬(t.buffer r k).live = true := fun live => (Buffer.live_iff _).1 live free
  exact {
    free := fun _ => lines
    count := by rw [lines]; exact Nat.zero_le _
    lines := fun x hx => by rw [lines] at hx; cases hx
    order := by rw [lines]; exact .nil
    load := fun live => absurd live idle
    small := fun live => absurd live idle
    medium := fun live => absurd live idle
    large := fun live => absurd live idle
    seen := seen r k
    waiting := fun _ x hx => by rw [lines] at hx; cases hx }

/-- A device at its power-on values keeps every law. -/
theorem State.AtPowerOn.lawful (seen : ∀ r k, (t.buffer r k).seen ≤ 2) (quiet : ∀ r, (t.route r).due = none) : t.Lawful where
  tables := h.tables
  estimate i := by rw [h.slot i]; exact ⟨fun _ => by decide, fun _ => rfl, fun h => (nomatch h), fun _ => rfl⟩
  ordered := {
    count := fun i _ => by
      rw [h.binsOut i, h.slot i]
      simp [State.openContainers, State.openLine, h.demand]
    bound := fun i _ _ => by simp [State.openLine, h.demand]
    sequenced := fun i _ => by simp [State.openLine, h.demand]
    blocked := fun i _ => by simp [State.openLine, h.demand] }
  demand := by rw [h.demand]; exact ⟨by decide, by decide, fun _ h => (nomatch h), fun _ h => (nomatch h)⟩
  train := h.train
  manifest := h.manifest seen
  rack := {
    one := fun i => by rw [h.racksOut i]; exact Nat.zero_le _
    marks := fun i m hm => by rw [h.slot i] at hm; cases hm }
  timing r := ⟨by rw [(h.counters r).1, h.timing r]; decide, fun t ht => by rw [h.pendingTiming r] at ht; cases ht⟩
  notices p := by rw [h.notices p]; exact ⟨by decide, by decide, by decide⟩
  sequence l := by rw [h.sequences l]; exact ⟨by decide, .nil, fun u hu => nomatch hu⟩
  cold := ⟨fun _ r k => (h.buffers r k).1, fun _ => by rw [h.demand], fun _ l => by rw [h.sequences l], fun _ => quiet⟩
  checker i := by rw [h.slot i]; exact ⟨by decide, by decide, fun h => absurd h (by decide), fun h => absurd h (by decide)⟩
  ports p := by rw [h.ports p]; exact ⟨fun _ _ _ h => (nomatch h), fun _ => ⟨rfl, rfl⟩⟩
  counters := {
    slots := fun i => by rw [h.slot i]; decide
    routes := fun r => by
      obtain ⟨-, -, -, -, late, overdue, held, missed, skipped⟩ := h.counters r
      rw [late, overdue, held, missed, skipped, (h.laps r).2.2]; decide
    demand := by rw [h.demand]; decide
    ports := fun p => by rw [h.ports p, h.notices p]; decide }

end

/-! ## The resets give the power-on values -/

theorem replicate_get {α : Type} {n : Nat} (x : α) (i : Fin n) : (Vector.replicate n x)[i] = x := by simp

/-- A state whose blocks are those of reset is at its power-on values, each gate following its RUN input (R81, R180). -/
theorem State.atPowerOn_of_reset {t : State} (clocks : ∀ l, t.clock l = ({ run := (t.clock l).run } : LineClock).write .follow)
    (e : t = { State.reset with pending := t.pending, resetN := t.resetN, clocks := t.clocks }) : t.AtPowerOn := by
  have route (r : RouteId) : t.route r = {} := by rw [e]; exact replicate_get _ r
  have slot (i : SlotId) : t.slot i = {} := by rw [e]; exact replicate_get _ i
  have usage (l : Line) : t.usage.get l = {} := by rw [e]; cases l <;> rfl
  exact {
    mode := by rw [e]; rfl
    slots := slot
    usage := fun l v g => by
      rw [usage l]
      refine ⟨?_, replicate_get _ g⟩
      show ((Vector.replicate 32 (Vector.replicate 16 0))[v])[g] = 0
      rw [replicate_get, replicate_get]
    sequences := fun l => by rw [e]; cases l <;> rfl
    demand := by rw [e]; rfl
    coverage := fun k => by rw [e]; exact replicate_get _ k
    diverts := fun k => by rw [e]; exact replicate_get _ k
    plant := by rw [e]; rfl
    clocks := clocks
    timing := fun r => by rw [route r]
    pendingTiming := fun r => by rw [route r]
    counters := fun r => by rw [route r]; decide
    lapFields := fun r => by rw [route r]; decide
    laps := fun r => by rw [route r]; decide
    buffers := fun r k => by unfold State.buffer; rw [route r]; cases k <;> exact ⟨rfl, rfl⟩
    image := ⟨fun i => by rw [slot i, e]; exact replicate_get _ i, by rw [e]; rfl, by rw [e]; rfl, by rw [e]; rfl,
      fun r => by rw [route r, e]; exact replicate_get _ r, by rw [e]; rfl⟩
    applyState := by rw [e]; rfl
    ports := fun p => by rw [e]; cases p <;> rfl
    notices := fun p => by rw [e]; cases p <;> rfl }

theorem State.reset_atPowerOn : State.reset.AtPowerOn :=
  State.atPowerOn_of_reset (fun l => by cases l <;> rfl) rfl

theorem State.poweredOn_atPowerOn (s : State) (v : Level) : ({ s.poweredOn with resetN := v } : State).AtPowerOn :=
  State.atPowerOn_of_reset (fun l => by cases l <;> rfl) rfl

/-- The power-on state's buffers show no departure point, and nothing is due. -/
theorem State.poweredOn_route (s : State) (r : RouteId) : s.poweredOn.route r = {} := replicate_get _ r

theorem State.poweredOn_lawful (s : State) (v : Level) : ({ s.poweredOn with resetN := v } : State).Lawful :=
  have route (r : RouteId) : ({ s.poweredOn with resetN := v } : State).route r = {} := s.poweredOn_route r
  (s.poweredOn_atPowerOn v).lawful
    (fun r k => by unfold State.buffer; rw [route r]; cases k <;> exact Nat.zero_le _) fun r => by rw [route r]

/-- While RESET_N is low, nothing is taken but the resets and the RUN inputs (R180). -/
theorem exec_inReset {s : State} (hs : s.resetN = .low) {i : Instr} (hp : i ≠ .powerOn) (hr : ∀ w, i ≠ .resetN w)
    (he : ∀ l w, i ≠ .runEdge l w) : exec i s = .next s := by
  cases hi : requestIn? i with
  | some _ => exact exec_request_inReset hi hs
  | none =>
    cases i <;> simp only [requestIn?, reduceCtorEq] at hi
    case powerOn => exact absurd rfl hp
    case resetN w => exact absurd rfl (hr w)
    case runEdge l w => exact absurd rfl (he l w)
    case frameDiscard p cause => rw [exec, execFrameDiscard, takeEvent_inReset hs]
    case csNFall p => rw [exec, execCsNFall, takeEvent_inReset hs]
    all_goals exact takeEvent_inReset hs

end Sys2Proof.Machine

open Sys2Proof Sys2Proof.Machine

/-- Settles O5: the reset state is at its power-on values, and those keep every law. -/
theorem resetStateIsLawful : Obligations.ResetStateIsLawful := by
  have route (r : RouteId) : State.reset.route r = {} := replicate_get _ r
  exact ⟨State.reset_atPowerOn, State.reset_atPowerOn.lawful
    (fun r k => by unfold State.buffer; rw [route r]; cases k <;> exact Nat.zero_le _) (fun r => by rw [route r]), rfl⟩

/-- Settles O4: both resets give the power-on state under the levels of the pins, and with RESET_N low every other command waits. -/
theorem powerAndResetPinGiveThePowerOnState : Obligations.PowerAndResetPinGiveThePowerOnState := by
  have run (s : State) (l : Line) : (s.poweredOn.clock l).run = (s.clock l).run := by cases l <;> rfl
  intro s
  refine ⟨⟨_, rfl, s.poweredOn_atPowerOn s.resetN, run s, rfl, rfl⟩, fun v => ⟨fun changes => ?_, fun present => ?_, ?_⟩⟩
  · exact ⟨_, congrArg Host.Outcome.next (if_neg changes), s.poweredOn_atPowerOn v, run s, rfl, rfl⟩
  · exact congrArg Host.Outcome.next (if_pos present)
  · exact fun hs i => exec_inReset hs
end

section
/-!
PROOFS that every step keeps the tables and the timing (O6), the notice queues, the port units and the counters (O7), and each slot's
estimate and check (O9): each effect retains these laws, part by part.
-/

namespace Sys2Proof.Machine

open Sys2Proof

/-- A slot's own laws: its estimate, its check and its counters. -/
structure Slot.Lawful (x : Slot) : Prop where
  estimate : x.EstimateLaw
  checker : x.CheckerLaw
  counters : x.CountersIn

/-- A route's plan: its configuration in range and its counter below its period. -/
structure Route.PlanLaw (x : Route) : Prop where
  cfg : x.cfg.InRange
  timing : x.TimingLaw

/-- A route's six statistics counters are within 16 bits. -/
def Route.CountersIn (x : Route) : Prop :=
  x.lateCount ≤ 65535 ∧ x.overdueCount ≤ 65535 ∧ x.heldCount ≤ 65535 ∧ x.missedCount ≤ 65535 ∧ x.skippedCount ≤ 65535 ∧
    x.mismatches ≤ 65535

/-- From x to y a route keeps its plan lawful and its counters in range. -/
structure Route.Keeps (x y : Route) : Prop where
  plan : x.PlanLaw → y.PlanLaw
  counters : x.CountersIn → y.CountersIn

/-- The tables in range and every route's timing lawful. -/
structure State.PlanLaw (s : State) : Prop where
  tables : s.TablesLaw
  timing : ∀ r, (s.route r).TimingLaw

/-- From s to t every part keeps its own laws. -/
structure Retains (s t : State) : Prop where
  plan : s.PlanLaw → t.PlanLaw
  slot : s.PlanLaw → ∀ i, (s.slot i).Lawful → (t.slot i).Lawful
  dropped : s.demand.returnsDropped ≤ 65535 → t.demand.returnsDropped ≤ 65535
  refused : s.demand.ordersRefused ≤ 65535 → t.demand.ordersRefused ≤ 65535
  notices : (∀ p, (s.queue p).Law) → ∀ p, (t.queue p).Law
  lost : (∀ p, (s.queue p).lost ≤ 65535) → ∀ p, (t.queue p).lost ≤ 65535
  routes : ∀ r, (s.route r).CountersIn → (t.route r).CountersIn
  ports : ∀ p, (s.port p).Keeps (t.port p)

/-! ## Routes -/

theorem Route.Keeps.refl (x : Route) : x.Keeps x := ⟨id, id⟩

theorem Route.Keeps.trans {x y z : Route} (h : x.Keeps y) (k : y.Keeps z) : x.Keeps z :=
  ⟨k.plan ∘ h.plan, k.counters ∘ h.counters⟩

/-- A change of a route that leaves its configuration, its counter and its pending timing. -/
theorem Route.keeps_plan {x y : Route} (cfg : y.cfg = x.cfg) (c : y.c = x.c) (next : y.next = x.next)
    (counters : x.CountersIn → y.CountersIn) : x.Keeps y :=
  ⟨fun h => ⟨cfg ▸ h.cfg, by rw [c, cfg]; exact h.timing.counter, next ▸ h.timing.pending⟩, counters⟩

theorem RouteConfig.InRange.withTiming {c : RouteConfig} (h : c.InRange) {t : RouteTiming} (ht : t.InRange) :
    ({ c with timing := t } : RouteConfig).InRange :=
  ⟨ht, h.small, h.medium, h.large, h.stops_low, h.stops_high⟩

theorem Route.count_keeps (x : Route) : x.Keeps x.count := by
  refine ⟨fun h => ⟨?_, Route.count_law h.timing⟩, fun h => ?_⟩ <;>
    obtain ⟨-, e⟩ | ⟨-, -, e⟩ | ⟨-, -, e⟩ := x.count_cases <;> rw [e]
  all_goals first | exact h | exact h.cfg

theorem Route.wrapped_keeps (x : Route) : x.Keeps x.wrapped := by
  refine ⟨fun h => ⟨?_, Route.wrapped_law h.timing⟩, fun h => ?_⟩ <;> cases hn : x.next with
    | none => rw [Route.wrapped_none hn]; first | exact h | exact h.cfg
    | some t => ?_
  · have ht := h.timing.pending t hn
    rw [Route.wrapped_some hn (by have := ht.period_low; omega)]
    exact h.cfg.withTiming ht
  · unfold Route.wrapped; simp only [hn]; exact h

theorem Route.runReset_keeps (x : Route) : x.Keeps x.runReset := by
  refine ⟨fun h => ⟨?_, Route.runReset_law h.timing⟩, fun _ => ?_⟩ <;> rw [Route.runReset_eq]
  · refine h.cfg.withTiming ?_
    cases hn : x.next with
    | none => exact h.cfg.timing
    | some t => exact h.timing.pending t hn
  · exact ⟨Nat.zero_le _, Nat.zero_le _, Nat.zero_le _, Nat.zero_le _, Nat.zero_le _, Nat.zero_le _⟩

theorem Route.freed_keeps (x : Route) (h : Half) : x.Keeps (x.freed h) :=
  Route.keeps_plan (by rw [Route.freed_rest]) (by rw [Route.freed_rest]) (by rw [Route.freed_rest])
    fun hc => by rw [Route.freed_rest]; exact hc

/-! ## Whole states -/

namespace Retains

variable {s t u : State}

theorem refl (s : State) : Retains s s := ⟨id, fun _ _ => id, id, id, id, id, fun _ => id, fun _ => ⟨id, id⟩⟩

theorem trans (h : Retains s t) (k : Retains t u) : Retains s u :=
  ⟨k.plan ∘ h.plan, fun hp i hx => k.slot (h.plan hp) i (h.slot hp i hx), k.dropped ∘ h.dropped, k.refused ∘ h.refused,
    k.notices ∘ h.notices, k.lost ∘ h.lost, fun r => k.routes r ∘ h.routes r,
    fun p => ⟨(k.ports p).1 ∘ (h.ports p).1, (k.ports p).2 ∘ (h.ports p).2⟩⟩

/-- A change of the parts that carry no law here. -/
theorem ofParts (image : t.image = s.image) (usage : t.usage = s.usage) (coverage : t.coverage = s.coverage)
    (diverts : t.diverts = s.diverts) (slots : t.slots = s.slots) (routes : t.routes = s.routes) (demand : t.demand = s.demand)
    (queues : t.queues = s.queues) (ports : ∀ p, (s.port p).Keeps (t.port p)) : Retains s t := by
  have slot (i : SlotId) : t.slot i = s.slot i := by unfold State.slot; rw [slots]
  have route (r : RouteId) : t.route r = s.route r := by unfold State.route; rw [routes]
  have queue (p : Port) : t.queue p = s.queue p := by unfold State.queue; rw [queues]
  refine ⟨fun h => ⟨?_, fun r => route r ▸ h.timing r⟩, fun _ i => by rw [slot]; exact id, by rw [demand]; exact id,
    by rw [demand]; exact id, fun h p => queue p ▸ h p, fun h p => queue p ▸ h p, fun r => by rw [route]; exact id, ports⟩
  obtain ⟨h1, h2, h3, h4, h5, h6, h7, h8, h9, h10, h11, h12, h13, h14⟩ := h.tables
  exact ⟨by rw [image]; exact h1, by rw [image]; exact h2, by rw [image]; exact h3, by rw [image]; exact h4, by rw [image]; exact h5,
    by rw [image]; exact h6, fun i => slot i ▸ h7 i, fun i => slot i ▸ h8 i, by rw [usage]; exact h9, fun r => route r ▸ h10 r,
    by rw [coverage]; exact h11, by rw [diverts]; exact h12, by rw [demand]; exact h13, by rw [demand]; exact h14⟩

/-- Work on slots, demand and notices retains the laws. -/
theorem ofWork (h : Work s t) : Retains s t where
  plan hp := {
    tables := by
      obtain ⟨h1, h2, h3, h4, h5, h6, h7, h8, h9, h10, h11, h12, h13, h14⟩ := hp.tables
      exact ⟨by rw [h.image]; exact h1, by rw [h.image]; exact h2, by rw [h.image]; exact h3, by rw [h.image]; exact h4,
        by rw [h.image]; exact h5, by rw [h.image]; exact h6, fun i => h.cfg i ▸ h7 i, fun i => h.cfg i ▸ h8 i,
        by rw [h.usage]; exact h9, fun r => h.route r ▸ h10 r, by rw [h.coverage]; exact h11, by rw [h.diverts]; exact h12,
        by rw [h.demand.ageStep]; exact h13, by rw [h.demand.watermark]; exact h14⟩
    timing := fun r => h.route r ▸ hp.timing r }
  slot _ i hx := ⟨(h.slot i).estimate hx.estimate, (h.slot i).checker hx.checker, (h.slot i).counters hx.counters⟩
  dropped := h.demand.dropped
  refused := h.demand.refused
  notices := h.notices
  lost := h.lost
  routes r := by rw [h.route r]; exact id
  ports p := by unfold State.port; rw [h.ports]; exact ⟨id, id⟩

/-- A change of the routes that keeps their plans and their counters lawful. -/
theorem ofPlans (rest : t = { s with routes := t.routes }) (plan : s.PlanLaw → ∀ r, (t.route r).PlanLaw)
    (counters : ∀ r, (s.route r).CountersIn → (t.route r).CountersIn) : Retains s t where
  plan hp := by
    have plan := plan hp
    refine ⟨?_, fun r => (plan r).timing⟩
    obtain ⟨h1, h2, h3, h4, h5, h6, h7, h8, h9, h10, h11, h12, h13, h14⟩ := hp.tables
    rw [rest]
    exact ⟨h1, h2, h3, h4, h5, h6, h7, h8, h9, fun r => (plan r).cfg, h11, h12, h13, h14⟩
  slot _ i := by rw [rest]; exact id
  dropped := by rw [rest]; exact id
  refused := by rw [rest]; exact id
  notices := by rw [rest]; exact id
  lost := by rw [rest]; exact id
  routes := counters
  ports p := by rw [rest]; exact ⟨id, id⟩

/-- A change of the routes, each keeping its plan and its counters. -/
theorem ofRoutes (rest : t = { s with routes := t.routes }) (h : ∀ r, (s.route r).Keeps (t.route r)) : Retains s t :=
  ofPlans rest (fun hp r => (h r).plan ⟨hp.tables.routes r, hp.timing r⟩) fun r => (h r).counters

theorem modRoute {r : RouteId} {f : Route → Route} (h : (s.route r).Keeps (f (s.route r))) : Retains s (s.modRoute r f) :=
  ofRoutes rfl fun k => by
    by_cases hk : k = r
    · subst hk; rwa [State.route_modRoute_self]
    · rw [State.route_modRoute_ne _ _ hk]; exact .refl _

theorem modBuffer (s : State) (r : RouteId) (h : Half) (f : Buffer → Buffer) : Retains s (s.modBuffer r h f) :=
  modRoute (Route.keeps_plan rfl rfl rfl id)

theorem raise (s : State) (e : Event) : Retains s (s.raise e) := ofWork (.raise s e)

theorem foldl {α : Type} {f : State → α → State} (h : ∀ s a, Retains s (f s a)) (as : List α) (s : State) :
    Retains s (as.foldl f s) := by
  induction as generalizing s with
  | nil => exact refl s
  | cons a as ih => exact (h s a).trans (ih _)

/-- A change of one port's queue that keeps its law. -/
theorem modQueue {p : Port} {f : NoticeQueue → NoticeQueue} (law : (s.queue p).Law → (f (s.queue p)).Law)
    (lost : (f (s.queue p)).lost = (s.queue p).lost) : Retains s (s.modQueue p f) where
  plan h := ⟨(ofParts rfl rfl rfl rfl rfl rfl rfl rfl (fun _ => ⟨id, id⟩) : Retains s
    { s.modQueue p f with queues := s.queues }).plan h |>.tables |> fun ⟨h1, h2, h3, h4, h5, h6, h7, h8, h9, h10, h11, h12, h13, h14⟩ =>
      ⟨h1, h2, h3, h4, h5, h6, h7, h8, h9, h10, h11, h12, h13, h14⟩, h.timing⟩
  slot _ _ := id
  dropped := id
  refused := id
  notices h k := by
    by_cases hk : k = p
    · subst hk; rw [State.queue_modQueue_self]; exact law (h k)
    · rw [State.queue_modQueue_ne _ _ hk]; exact h k
  lost h k := by
    by_cases hk : k = p
    · subst hk; rw [State.queue_modQueue_self, lost]; exact h k
    · rw [State.queue_modQueue_ne _ _ hk]; exact h k
  routes _ := id
  ports _ := ⟨id, id⟩

end Retains

/-! ## The points of a route -/

theorem goLate_retains (s : State) (r : RouteId) (b : Buffer) : Retains s (s.goLate r b) := by
  unfold State.goLate
  split
  · exact .refl s
  · exact (Retains.modRoute (Route.keeps_plan rfl rfl rfl fun h => ⟨bump_le _, h.2⟩)).trans (.raise _ _)

theorem goOverdue_retains (s : State) (r : RouteId) (h : Half) : Retains s (s.goOverdue r h) :=
  ((Retains.modBuffer s r h _).trans (.modRoute (Route.keeps_plan rfl rfl rfl fun h => ⟨h.1, bump_le _, h.2.2⟩))).trans
    (.raise _ _)

theorem judgeDeparture_retains (r : RouteId) (s : State) (h : Half) : Retains s (State.judgeDeparture r s h) := by
  unfold State.judgeDeparture
  dsimp only
  have seen : Retains s (s.modBuffer r h fun b => { b with seen := min (b.seen + 1) 2 }) := .modBuffer s r h _
  split
  · split
    · exact seen.trans (goOverdue_retains ..)
    · exact seen
  · split
    · exact seen.trans (goLate_retains ..)
    · exact seen

theorem settled_retains (s : State) (r : RouteId) : Retains s (s.modRoute r fun x => { x with due := none }) :=
  .modRoute (Route.keeps_plan rfl rfl rfl id)

theorem departurePoint_retains (s : State) (r : RouteId) : Retains s (s.departurePoint r) :=
  (Retains.foldl (judgeDeparture_retains r) _ s).trans (settled_retains _ r)

theorem skippedPoint_retains (s : State) (r : RouteId) : Retains s (s.skippedPoint r) :=
  .modRoute (Route.keeps_plan rfl rfl rfl fun ⟨h1, h2, h3, h4, _, h6⟩ => ⟨h1, h2, h3, h4, bump_le _, h6⟩)

theorem wrapPoint_retains (s : State) (r : RouteId) : Retains s (s.wrapPoint r) := .modRoute (Route.wrapped_keeps _)

theorem buildInto_retains (s : State) (r : RouteId) (h : Half) : Retains s (s.buildInto r h) := by
  unfold State.buildInto
  dsimp only
  have selected := Retains.ofWork (selectLoad_work s r)
  generalize s.selectLoad r = w at selected ⊢
  exact (selected.trans (.modRoute (Route.keeps_plan rfl rfl rfl id))).trans (.raise _ _)

theorem build_retains (s : State) (r : RouteId) : Retains s (s.build r) := by
  unfold State.build
  dsimp only
  split
  · exact .modRoute (Route.keeps_plan rfl rfl rfl fun h => ⟨h.1, h.2.1, bump_le _, h.2.2.2⟩)
  · split
    · exact buildInto_retains ..
    · exact (Retains.modRoute (Route.keeps_plan rfl rfl rfl fun h => ⟨h.1, h.2.1, h.2.2.1, bump_le _, h.2.2.2.2⟩)).trans
        (.raise _ _)

theorem buildPoint_retains (s : State) (r : RouteId) : Retains s (s.buildPoint r) :=
  ((Retains.ofWork (retestUncovered_work s)).trans (build_retains _ r)).trans (settled_retains _ r)

theorem takeDue_retains (s : State) (r : RouteId) : Retains s (s.takeDue r) := by
  unfold State.takeDue
  split
  · exact .refl s
  · exact wrapPoint_retains s r
  · exact buildPoint_retains s r
  · exact departurePoint_retains s r
  · exact skippedPoint_retains s r

theorem settleRoutes_retains (s : State) : Retains s s.settleRoutes :=
  .foldl (fun s r => (takeDue_retains s r).trans (takeDue_retains _ r)) _ s

theorem countRoutes_retains (s : State) : Retains s s.countRoutes :=
  .ofRoutes rfl fun r => by
    rw [State.countRoutes_route]
    split
    · exact Route.count_keeps _
    · exact .refl _

theorem decisecond_retains (s : State) : Retains s s.settleRoutes.tickClocks.countRoutes :=
  have ticked (t : State) : Retains t t.tickClocks :=
    .ofParts (s := t) (t := t.tickClocks) rfl rfl rfl rfl rfl rfl rfl rfl fun _ => ⟨id, id⟩
  ((settleRoutes_retains s).trans (ticked _)).trans (countRoutes_retains _)

/-! ## The lap -/

theorem handBack_retains (s : State) (r : RouteId) (h : Half) (sel : ManifestLine → Bool) (cls : ManifestLine → DemandClass) :
    Retains s (s.handBack r h sel cls) := by
  unfold State.handBack
  exact (Retains.ofWork (foldl_returnPlanned_work s cls _)).trans (.modBuffer _ r h _)

theorem freed_retains (s : State) (r : RouteId) (h : Half) : Retains s (s.modRoute r fun x => x.freed h) :=
  .modRoute (Route.freed_keeps _ h)

/-! ## Resets and modes -/

theorem Slot.runReset_lawful (x : Slot) : x.runReset.Lawful where
  estimate := x.runReset_law
  checker := ⟨Nat.zero_le _, by simp [Slot.runReset], fun h => absurd h Bool.false_ne_true, fun h => nomatch h⟩
  counters := ⟨Nat.zero_le _, Nat.zero_le _, Nat.zero_le _⟩

theorem runReset_retains (s : State) : Retains s s.runReset where
  plan hp := by
    have plan (r : RouteId) : (s.runReset.route r).PlanLaw := by
      rw [State.runReset_route]
      exact (Route.runReset_keeps _).plan ⟨hp.tables.routes r, hp.timing r⟩
    refine ⟨?_, fun r => (plan r).timing⟩
    obtain ⟨h1, h2, h3, h4, h5, h6, h7, h8, h9, h10, h11, h12, h13, h14⟩ := hp.tables
    exact ⟨h1, h2, h3, h4, h5, h6, fun i => by rw [State.runReset_slot]; exact h7 i,
      fun i => by rw [State.runReset_slot]; exact h8 i, h9, fun r => (plan r).cfg, h11, h12, h13, h14⟩
  slot _ i _ := by rw [State.runReset_slot]; exact Slot.runReset_lawful _
  dropped _ := Nat.zero_le _
  refused _ := Nat.zero_le _
  notices h p := by rw [State.runReset_queue]; exact NoticeQueue.runReset_law (h p)
  lost _ p := by rw [State.runReset_queue]; exact Nat.zero_le _
  routes r := by rw [State.runReset_route]; exact (Route.runReset_keeps _).counters
  ports p := by rw [State.runReset_port]; exact ⟨fun h => ⟨h.payload, h.idle⟩, fun _ => Nat.zero_le _⟩

theorem enter_retains (s : State) (m : DeviceMode) : Retains s (s.enter m) :=
  (Retains.ofParts (s := s) (t := { s with mode := m }) rfl rfl rfl rfl rfl rfl rfl rfl fun _ => ⟨id, id⟩).trans (.raise _ _)

theorem poweredOn_retains (s : State) (v : Level) : Retains s { s.poweredOn with resetN := v } :=
  have law := s.poweredOn_lawful v
  ⟨fun _ => ⟨law.tables, law.timing⟩, fun _ i _ => ⟨law.estimate i, law.checker i, law.counters.slots i⟩,
    fun _ => law.counters.demand.1, fun _ => law.counters.demand.2, fun _ => law.notices, fun _ p => (law.counters.ports p).2,
    fun r _ => law.counters.routes r, fun p => ⟨fun _ => law.ports p, fun _ => (law.counters.ports p).1⟩⟩

/-! ## Announcing -/

/-- Anchoring a line gives marks to SEQUENCED slots alone (R27). -/
theorem State.anchor_slot (s : State) (l : Line) (seq : SeqNo) (i : SlotId) :
    (s.anchor l seq).slot i = if (s.slot i).cfg.kind = .sequenced ∧ (s.slot i).cfg.line = l then
      { s.slot i with marks := some ⟨seq - 1, seq - 1⟩ } else s.slot i :=
  getElem_mapTable _ s.slots i.val i.isLt

theorem anchor_work (s : State) (l : Line) (seq : SeqNo) : Work s (s.anchor l seq) where
  rest := rfl
  slot i := by
    rw [State.anchor_slot]
    split
    next h =>
      refine ⟨rfl, fun law => ⟨law.range, law.empty, fun hk => ?_, fun hk => ?_⟩,
        fun law => ⟨law.count, law.kind, law.withheld, law.declared⟩, id⟩
      · rw [law.sequenced hk]
      · exact absurd (h.1.symm.trans hk) (by decide)
    · exact .refl _
  demand := .refl _
  notices := id
  lost := id

/-! ## Staging -/

/-- A written entry that is in range keeps the tables (R156). -/
theorem modImage_retains {s : State} {f : Image → Image} (slots : s.TablesLaw → ∀ i : SlotId, (f s.image).slots[i].InRange)
    (usage : s.TablesLaw → ∀ l, ((f s.image).usage.get l).InRange)
    (routes : s.TablesLaw → ∀ r : RouteId, (f s.image).routes[r].InRange)
    (windows : s.TablesLaw → ∀ k : Fin 12, (f s.image).windows[k].InRange)
    (age : s.TablesLaw → (f s.image).ageStep ≤ 7)
    (high : s.TablesLaw → 1 ≤ (f s.image).watermark ∧ (f s.image).watermark ≤ 128) : Retains s (s.modImage f) where
  plan hp := ⟨⟨slots hp.tables, usage hp.tables, routes hp.tables, windows hp.tables, age hp.tables, high hp.tables,
    hp.tables.slots, hp.tables.bounds, hp.tables.usage, hp.tables.routes, hp.tables.coverage, hp.tables.diverts, hp.tables.age,
    hp.tables.high⟩, hp.timing⟩
  slot _ _ := id
  dropped := id
  refused := id
  notices := id
  lost := id
  routes _ := id
  ports _ := ⟨id, id⟩

/-- A table with one entry replaced holds at each place the new entry or the old one. -/
theorem vector_set_all {α : Type} {n : Nat} {p : α → Prop} {xs : Vector α n} {k : Fin n} {x : α} (hx : p x)
    (h : ∀ j : Fin n, p xs[j]) (j : Fin n) : p (xs.set k x)[j] := by
  show p (xs.set k.val x k.isLt)[j.val]
  rw [Vector.getElem_set]
  split
  · exact hx
  · exact h j

theorem stagedSlot_inRange {f : SlotFields} {c : SlotConfig} (h : stagedSlot? f = some c) : c.InRange := by
  simp only [stagedSlot?, Option.bind_eq_bind, Option.bind_eq_some_iff, Option.pure_def, Option.some.injEq] at h
  obtain ⟨_, _, _, _, _, _, _, _, _, _, _, _, _, _, rfl⟩ := h
  have cq := clamp_range (lo := 1) (hi := 9999) (by decide) f.cq
  have mc := clamp_range (lo := 1) (hi := 4) (by decide) f.mc
  have rack := clamp_range (lo := 1) (hi := 12) (by decide) f.rackSize
  exact ⟨Nat.min_le_right .., cq.1, cq.2, mc.1, mc.2, Nat.min_le_right .., rack.1, rack.2, Nat.min_le_right ..⟩

theorem stagedRoute_inRange {f : RouteFields} {c : RouteConfig} (h : stagedRoute? f = some c) : c.InRange := by
  simp only [stagedRoute?, Option.bind_eq_bind, Option.bind_eq_some_iff, Option.pure_def] at h
  obtain ⟨source, _, mode, _, h⟩ := h
  split at h
  · cases h
  next stops =>
    cases h
    have period := clamp_range (lo := 600) (hi := 36000) (by decide) f.period
    have build := f.buildAt.isLt
    have depart := f.departAt.isLt
    exact ⟨⟨period.1, period.2, Nat.le_of_lt_succ build, Nat.le_of_lt_succ depart⟩, Nat.min_le_right .., Nat.min_le_right ..,
      Nat.min_le_right .., by dsimp only; omega, by dsimp only; omega⟩

theorem stagedWindow_inRange {f : WindowFields} {w : Window} (h : stagedWindow? f = some w) : w.InRange := by
  simp only [stagedWindow?, Option.bind_eq_bind, Option.bind_eq_some_iff, Option.pure_def, Option.some.injEq] at h
  obtain ⟨_, _, rfl⟩ := h
  refine ⟨Nat.min_le_right .., fun p hp => ?_⟩
  simp only [Option.map_eq_some_iff] at hp
  obtain ⟨n, _, rfl⟩ := hp
  exact Nat.min_le_right ..

/-- What an overlay leaves at a place: the value written there, or the old one. -/
theorem overlay_getElem (k : Nat) (values : List Nat) (xs : Vector Nat 16) (j : Fin 16) :
    (overlay xs k values)[j] =
      if k ≤ j.val ∧ j.val < k + values.length then values.getD (j.val - k) 0 else xs[j] := by
  induction values generalizing xs k with
  | nil => simp [overlay]
  | cons v vs ih =>
    rw [overlay, ih, List.length_cons]
    by_cases hj : j.val = k
    · have hk : k < 16 := hj ▸ j.isLt
      rw [if_neg (by omega), if_pos (by omega), dif_pos hk]
      show (xs.set k v hk)[j.val] = _
      simp [hj]
    · have keep : (if h : k < 16 then xs.set k v else xs)[j] = xs[j] := by
        split
        · show (xs.set k v _)[j.val] = _
          rw [Vector.getElem_set_ne _ _ (Ne.symm hj)]
          rfl
        · rfl
      rw [keep]
      by_cases hin : k + 1 ≤ j.val ∧ j.val < k + 1 + vs.length
      · rw [if_pos hin, if_pos (by omega), show j.val - k = (j.val - (k + 1)) + 1 by omega, List.getD_cons_succ]
      · rw [if_neg hin, if_neg (by omega)]

theorem overlay_le {bound : Nat} {xs : Vector Nat 16} (h : ∀ j : Fin 16, xs[j] ≤ bound) (k : Nat) (values : List Nat)
    (j : Fin 16) : (overlay xs k (values.map (min · bound)))[j] ≤ bound := by
  rw [overlay_getElem]
  split
  · simp only [List.getD_eq_getElem?_getD, List.getElem?_map]
    cases values[j.val - k]? with
    | none => exact Nat.zero_le _
    | some n => exact Nat.min_le_right ..
  · exact h j

theorem LineUsage.write_entries_q (u : LineUsage) (v : Variant) (first : Nat) (values : List Nat) (w : Variant) :
    (u.write (.entries v) first values).q[w] = if w = v then overlay u.q[v] first values else u.q[w] := by
  show (u.q.set v.val (overlay u.q[v] first values) v.isLt)[w.val] = _
  rw [Vector.getElem_set]
  by_cases h : w = v
  · subst h; simp
  · rw [if_neg (fun e => h (Fin.ext e.symm)), if_neg h]; rfl

/-- Writing clamped values into a row keeps a line's usage in range, the row of variant 0 untouched (R10, R11). -/
theorem LineUsage.InRange.write {u : LineUsage} (h : u.InRange) {k : StagedRow} (hk : k ≠ .entries 0) (first : Nat)
    (values : List Nat) : (u.write k first (values.map (min · k.bound))).InRange := by
  cases k with
  | allowances => exact ⟨h.entry, h.gap, overlay_le h.allowance first values⟩
  | entries v =>
    have hv : (0 : Variant) ≠ v := fun e => hk (by rw [← e])
    refine ⟨fun w g => ?_, fun g => ?_, h.allowance⟩ <;> rw [LineUsage.quantity, LineUsage.write_entries_q]
    · split
      · exact overlay_le (fun j => h.entry v j) first values g
      · exact h.entry w g
    · rw [if_neg hv]; exact h.gap g

theorem stagedRow_ne_gap {row : UsageRow} {k : StagedRow} (h : stagedRow? row = some k) : k ≠ .entries 0 := by
  intro e
  subst e
  cases row with
  | allowance => cases h
  | variant n =>
    by_cases hn : n = 0
    · simp [stagedRow?, hn] at h
    · simp only [stagedRow?, if_neg hn, Option.map_eq_some_iff, StagedRow.entries.injEq] at h
      obtain ⟨v, hv, rfl⟩ := h
      unfold variantOf? at hv
      split at hv
      · simp only [Option.some.injEq, Fin.ext_iff] at hv
        exact hn hv
      · cases hv

/-! ## The apply -/

theorem SlotConfig.applied_kind (c : SlotConfig) : c.applied.kind = c.kind := by
  unfold SlotConfig.applied; split <;> rfl

theorem SlotConfig.InRange.applied {c : SlotConfig} (h : c.InRange) : c.applied.InRange := by
  unfold SlotConfig.applied
  split
  · exact h
  · exact ⟨h.allowance, h.cq_low, h.cq_high, h.mc_low, h.mc_high, h.band, h.rack_low, h.rack_high, h.lead⟩

/-- The clamps of an apply bound a KANBAN record (R159, R161). -/
theorem SlotConfig.applied_bounded {c : SlotConfig} (hk : c.applied.kind = .kanban) : c.applied.Bounded := by
  rw [SlotConfig.applied_kind] at hk
  unfold SlotConfig.applied
  rw [hk]
  refine ⟨Nat.min_le_right .., Nat.min_le_right .., fun n hn => ?_⟩
  dsimp only at hn
  split at hn
  · cases hn
  · cases hn; exact Nat.min_le_right ..

theorem State.adjustKanban_image (s : State) (i : SlotId) (old new : SlotConfig) :
    (s.adjustKanban i old new).image = s.image := by
  have cancelIf (t : State) (p : Prop) [Decidable p] (n : Nat) : (if p then t.cancelOpen i n else t).image = t.image := by
    split
    · exact (cancelOpen_moves i t n).image
    · rfl
  unfold State.adjustKanban
  dsimp only
  split
  · rw [cancelIf, cancelIf]; rfl
  · rw [State.modSlot_image, cancelIf, cancelIf]; rfl

/-- An adjustment writes the clamped record to the image as well (R161). -/
theorem State.adjustSlot_image (s : State) (i : SlotId) :
    (s.adjustSlot i).image = { s.image with slots := s.image.slots.set i (s.stagedConfig i) } := by
  have cancel (t : State) (n : Nat) : (t.cancelOpen i n).image = t.image := (cancelOpen_moves i t n).image
  unfold State.adjustSlot
  dsimp only
  split
  · rw [State.adjustKanban_image]; rfl
  · unfold State.makeSequenced
    rw [State.modSlot_image, cancel]; rfl
  · rfl
  · split <;> rfl

theorem SameButOrders.lawful {x y : Slot} (h : SameButOrders x y) (hk : x.cfg.kind = .kanban) (law : x.Lawful) : y.Lawful := by
  rw [h]
  have keep := Slot.keeps_kanbanOrders hk y.ordered y.blocked
  exact ⟨keep.estimate law.estimate, keep.checker law.checker, keep.counters law.counters⟩

/-- A slot's record after an adjustment has its staged configuration (R161, R162). -/
theorem State.adjustSlot_cfg (s : State) (i : SlotId) : ((s.adjustSlot i).slot i).cfg = s.stagedConfig i := by
  have := adjustSlot_slot s i rfl rfl
  split at this
  · exact this.cfg
  all_goals rw [this]

/-- An adjustment keeps its slot's own laws (R161, R162). -/
theorem State.adjustSlot_lawful (s : State) (i : SlotId) (law : (s.slot i).Lawful) : ((s.adjustSlot i).slot i).Lawful := by
  have := adjustSlot_slot s i rfl rfl
  split at this
  next hk hk' =>
    refine this.lawful hk' ⟨⟨fun _ => Nat.min_le_right .., fun hs => ?_, fun h => absurd (hk'.symm.trans h) (by decide),
      fun _ => law.estimate.unanchored hk⟩, ?_, law.counters⟩
    · rw [law.estimate.empty hs, Nat.zero_min]
    · split
      · exact ⟨law.checker.count, law.checker.kind, law.checker.withheld, law.checker.declared⟩
      · exact ⟨Nat.zero_le _, by simp, law.checker.withheld, fun h => nomatch h⟩
  next hk hk' =>
    rw [this]
    exact ⟨⟨fun h => absurd (hk'.symm.trans h) (by decide), fun h => absurd h Bool.false_ne_true, fun _ => rfl,
      fun h => absurd (hk'.symm.trans h) (by decide)⟩,
      ⟨Nat.zero_le _, by simp, fun h => absurd h Bool.false_ne_true, fun h => nomatch h⟩, Nat.zero_le _, Nat.zero_le _, Nat.zero_le _⟩
  next hk hk' =>
    rw [this]
    refine ⟨⟨fun _ => ?_, fun h => absurd h Bool.false_ne_true, fun h => absurd (hk'.symm.trans h) (by decide), fun _ => rfl⟩,
      ⟨Nat.zero_le _, by simp, fun h => absurd h Bool.false_ne_true, fun h => nomatch h⟩, Nat.zero_le _, Nat.zero_le _, Nat.zero_le _⟩
    show (s.stagedConfig i).startMp ≤ (s.stagedConfig i).fullMp
    unfold SlotConfig.startMp
    split
    · exact Nat.le_refl _
    · exact Nat.min_le_right ..
  next hk hk' =>
    rw [this, law.estimate.sequenced hk]
    exact ⟨⟨fun h => absurd (hk'.symm.trans h) (by decide), fun h => absurd h Bool.false_ne_true, fun _ => rfl,
      fun h => absurd (hk'.symm.trans h) (by decide)⟩,
      ⟨Nat.zero_le _, by simp, fun h => absurd h Bool.false_ne_true, fun h => nomatch h⟩, Nat.zero_le _, Nat.zero_le _, Nat.zero_le _⟩

/-- From s to t the demand queue keeps its globals and its counters' range. -/
def State.KeepsDemand (s t : State) : Prop := s.demand.Keeps t.demand

theorem State.KeepsDemand.cancelIf {s t : State} (h : s.KeepsDemand t) (i : SlotId) (p : Prop) [Decidable p] (n : Nat) :
    s.KeepsDemand (if p then t.cancelOpen i n else t) := by
  split
  · exact DemandQueue.Keeps.trans h (cancelOpen_work t i n).demand
  · exact h

/-- The adjustments of a slot that stays KANBAN cancel, and leave the rest of the queue (R56, R161). -/
theorem State.KeepsDemand.adjustKanban {s t : State} (h : s.KeepsDemand t) (i : SlotId) (old new : SlotConfig) :
    s.KeepsDemand (t.adjustKanban i old new) := by
  have capped : s.KeepsDemand (t.modSlot i fun x => { x with oh := min x.oh new.fullMp }) := h
  unfold State.adjustKanban
  dsimp only
  split
  · exact (capped.cancelIf i _ _).cancelIf i _ _
  · exact (capped.cancelIf i _ _).cancelIf i _ _

/-- An adjustment's cancels keep the demand queue's globals and counters (R56). -/
theorem State.adjustSlot_demand (s : State) (i : SlotId) : s.KeepsDemand (s.adjustSlot i) := by
  have written : s.KeepsDemand ((s.modSlot i fun x => { x with cfg := s.stagedConfig i }).modImage
      fun m => { m with slots := m.slots.set i (s.stagedConfig i) }) := DemandQueue.Keeps.refl _
  unfold State.adjustSlot
  dsimp only
  split
  · exact written.adjustKanban i _ _
  · exact DemandQueue.Keeps.trans written (cancelOpen_work _ i _).demand
  · exact written
  · split <;> exact written

theorem adjustSlot_retains (s : State) (i : SlotId) : Retains s (s.adjustSlot i) := by
  have moves := adjustSlot_moves s i
  have demand := s.adjustSlot_demand i
  have rest := moves.rest
  have route (r : RouteId) : (s.adjustSlot i).route r = s.route r := by rw [rest]; rfl
  have queue (p : Port) : (s.adjustSlot i).queue p = s.queue p := by rw [rest]; rfl
  refine ⟨fun hp => ⟨?_, fun r => route r ▸ hp.timing r⟩, fun _ j hx => ?_, demand.dropped, demand.refused,
    fun h p => queue p ▸ h p, fun h p => queue p ▸ h p, fun r => by rw [route]; exact id, fun p => by rw [rest]; exact ⟨id, id⟩⟩
  · have new : (s.stagedConfig i).InRange := (hp.tables.stagedSlots i).applied
    have cfg (j : SlotId) (p : SlotConfig → Prop) (hi : p (s.stagedConfig i)) (hj : p (s.slot j).cfg) :
        p ((s.adjustSlot i).slot j).cfg := by
      by_cases h : j = i
      · subst h; rw [State.adjustSlot_cfg]; exact hi
      · rw [moves.others j h]; exact hj
    have image := s.adjustSlot_image i
    obtain ⟨h1, h2, h3, h4, h5, h6, h7, h8, h9, h10, h11, h12, h13, h14⟩ := hp.tables
    exact ⟨fun j => by rw [image]; exact vector_set_all (p := SlotConfig.InRange) new h1 j, by rw [image]; exact h2, by rw [image]; exact h3,
      by rw [image]; exact h4, by rw [image]; exact h5, by rw [image]; exact h6, fun j => cfg j _ new (h7 j),
      fun j => cfg j (fun c => c.kind = .kanban → c.Bounded) SlotConfig.applied_bounded (h8 j), by rw [rest]; exact h9,
      fun r => route r ▸ h10 r, by rw [rest]; exact h11, by rw [rest]; exact h12, by rw [demand.ageStep]; exact h13,
      by rw [demand.watermark]; exact h14⟩
  · by_cases h : j = i
    · subst h; exact s.adjustSlot_lawful j hx
    · rw [moves.others j h]; exact hx

theorem applyGlobals_retains (s : State) : Retains s s.applyGlobals where
  plan hp := by
    refine ⟨?_, hp.timing⟩
    obtain ⟨h1, h2, h3, h4, h5, h6, h7, h8, h9, h10, h11, h12, h13, h14⟩ := hp.tables
    exact ⟨h1, h2, h3, h4, h5, h6, h7, h8, h9, h10, h11, h12, h5, h6⟩
  slot _ _ := id
  dropped := id
  refused := id
  notices := id
  lost := id
  routes _ := id
  ports _ := ⟨id, id⟩

/-- Usage and windows are taken from the image, where they are in range. -/
theorem applyTables_retains (s : State) : Retains s s.applyUsage.applyWindows where
  plan hp := by
    refine ⟨?_, hp.timing⟩
    obtain ⟨h1, h2, h3, h4, h5, h6, h7, h8, h9, h10, h11, h12, h13, h14⟩ := hp.tables
    exact ⟨h1, h2, h3, h4, h5, h6, h7, h8, h2, h10, h4, h12, h13, h14⟩
  slot _ _ := id
  dropped := id
  refused := id
  notices := id
  lost := id
  routes _ := id
  ports _ := ⟨id, id⟩

theorem Route.applied_counters {x : Route} {c : RouteConfig} (h : x.CountersIn) : (x.applied c).CountersIn := by
  obtain ⟨-, e⟩ | ⟨-, -, e⟩ | ⟨-, -, e⟩ := x.applied_cases c <;> rw [e] <;> exact h

theorem Route.PlanLaw.applied {x : Route} {c : RouteConfig} (h : x.PlanLaw) (hc : c.InRange) : (x.applied c).PlanLaw := by
  refine ⟨?_, Route.applied_law h.timing hc⟩
  obtain ⟨-, e⟩ | ⟨-, -, e⟩ | ⟨-, -, e⟩ := x.applied_cases c <;> rw [e]
  · exact hc
  · exact hc.withTiming h.cfg.timing
  · exact hc

theorem applyRoutes_retains (s : State) : Retains s s.applyRoutes :=
  .ofPlans s.applyRoutes_rest
    (fun hp r => by
      rw [State.applyRoutes_route]
      exact Route.PlanLaw.applied ⟨hp.tables.routes r, hp.timing r⟩ (hp.tables.stagedRoutes r))
    fun r h => by rw [State.applyRoutes_route]; exact Route.applied_counters h

theorem applyImage_retains (s : State) (line : Option Line) (mode : ApplyMode) (seq : SeqNo) :
    Retains s (s.applyImage line mode seq) := by
  unfold State.applyImage
  dsimp only
  have tables := ((applyGlobals_retains s).trans (applyTables_retains _)).trans (applyRoutes_retains _)
  have adjusted := tables.trans (Retains.foldl adjustSlot_retains s.changedSlots _)
  refine .trans ?_ (.raise _ _)
  split
  · exact adjusted
  · exact adjusted.trans (.foldl (fun s i => .ofWork (evaluate_work s i)) _ _)

/-! ## The advance -/

theorem settleList_retains (s : State) (l : Line) (seq : SeqNo) (a : Settled) : Retains s (s.settleList l seq a) := by
  unfold State.settleList
  dsimp only
  have listed : Retains s (s.modSeq l fun q => { q with units := a.rest }) :=
    .ofParts rfl rfl rfl rfl rfl rfl rfl rfl fun _ => ⟨id, id⟩
  split
  · exact listed.trans (.raise _ _)
  · exact listed

theorem takeAdvance_retains (s : State) (l : Line) (seq : SeqNo) (v : Variant) (mark : Bool) :
    Retains s (s.takeAdvance l seq v mark) := by
  unfold State.takeAdvance
  dsimp only
  have applied (t : State) (m : Bool) : Retains t (t.applyAtMark l m seq) := by
    unfold State.applyAtMark
    split
    · exact (applyImage_retains t _ _ _).trans (.ofParts rfl rfl rfl rfl rfl rfl rfl rfl fun _ => ⟨id, id⟩)
    · exact .refl t
  exact (((settleList_retains ..).trans (applied ..)).trans (.ofWork (drawLine_work ..))).trans (.ofWork (starveLine_work ..))

/-! ## Every step -/

theorem effect_retains {s u : State} (h : Effect s u) : Retains s u := by
  have quiet {u : State} (image : u.image = s.image) (usage : u.usage = s.usage) (coverage : u.coverage = s.coverage)
      (diverts : u.diverts = s.diverts) (slots : u.slots = s.slots) (routes : u.routes = s.routes) (demand : u.demand = s.demand)
      (queues : u.queues = s.queues) (ports : u.ports = s.ports) : Retains s u :=
    .ofParts image usage coverage diverts slots routes demand queues fun p => by unfold State.port; rw [ports]; exact ⟨id, id⟩
  have flag (r : RouteId) {f : Route → Route} (h : (s.route r).Keeps (f (s.route r))) : Retains s (s.modRoute r f) := .modRoute h
  cases h with
  | nothing => exact .refl s
  | powerOn v => exact poweredOn_retains s v
  | edge | gate | announceNext | arm => exact quiet rfl rfl rfl rfl rfl rfl rfl rfl rfl
  | decisecond => exact decisecond_retains s
  | wrap r => exact wrapPoint_retains s r
  | build r => exact buildPoint_retains s r
  | departure r => exact departurePoint_retains s r
  | skipped r => exact skippedPoint_retains s r
  | readNotices p n => exact .modQueue (fun h => NoticeQueue.read_law h n) rfl
  | setNoticeMode p m n low high => exact .modQueue (fun h => NoticeQueue.judge_law h.count ⟨low, high⟩) rfl
  | announceFirst l seq =>
    exact (Retains.ofWork (anchor_work s l seq)).trans (.ofParts rfl rfl rfl rfl rfl rfl rfl rfl fun _ => ⟨id, id⟩)
  | advance => exact takeAdvance_retains ..
  | snapshot => exact .ofWork (snapshot_work ..)
  | depart => exact (Retains.modBuffer ..).trans (.modRoute (Route.keeps_plan rfl rfl rfl id))
  | arrive =>
    exact ((handBack_retains ..).trans (.ofWork (tellReturned_work ..))).trans (.modRoute (Route.keeps_plan rfl rfl rfl id))
  | dropMissed r => exact flag r (Route.keeps_plan rfl rfl rfl fun ⟨h1, h2, h3, h4, h5, _⟩ => ⟨h1, h2, h3, h4, h5, bump_le _⟩)
  | dropHit => exact (Retains.modBuffer ..).trans (.ofWork (deliverLine_work ..))
  | lapEnd | cancelManifest =>
    exact ((handBack_retains ..).trans (.ofWork (tellReturned_work ..))).trans (freed_retains ..)
  | beginPick | loadConfirm => exact .modBuffer ..
  | shortPick =>
    exact ((Retains.modBuffer ..).trans (.ofWork (returnLine_work ..))).trans (.ofWork (tellReturned_work ..))
  | late r => exact flag r (Route.keeps_plan rfl rfl rfl id)
  | hold r => exact flag r (Route.keeps_plan rfl rfl rfl id)
  | stageSlot i f c staged =>
    exact modImage_retains (fun h => vector_set_all (stagedSlot_inRange staged) h.stagedSlots) (·.stagedUsage) (·.stagedRoutes)
      (·.stagedWindows) (·.stagedAge) (·.stagedHigh)
  | stageUsage l row k g values staged =>
    refine modImage_retains (·.stagedSlots) (fun h m => ?_) (·.stagedRoutes) (·.stagedWindows) (·.stagedAge) (·.stagedHigh)
    by_cases hm : m = l
    · subst hm
      rw [PerLine.get_modify_self]
      exact (h.stagedUsage m).write (stagedRow_ne_gap staged) g.val values
    · rw [PerLine.get_modify_ne _ _ hm]; exact h.stagedUsage m
  | stageRoute r f c staged =>
    exact modImage_retains (·.stagedSlots) (·.stagedUsage) (fun h => vector_set_all (stagedRoute_inRange staged) h.stagedRoutes)
      (·.stagedWindows) (·.stagedAge) (·.stagedHigh)
  | stageWindow k f w staged =>
    exact modImage_retains (·.stagedSlots) (·.stagedUsage) (·.stagedRoutes)
      (fun h => vector_set_all (stagedWindow_inRange staged) h.stagedWindows) (·.stagedAge) (·.stagedHigh)
  | stageGlobals f =>
    exact modImage_retains (·.stagedSlots) (·.stagedUsage) (·.stagedRoutes) (·.stagedWindows) (fun _ => Nat.min_le_right ..)
      fun _ => clamp_range (by decide) _
  | apply => exact applyImage_retains ..
  | divert k f w staged =>
    refine ⟨fun hp => ⟨?_, hp.timing⟩, fun _ _ => id, id, id, id, id, fun _ => id, fun _ => ⟨id, id⟩⟩
    obtain ⟨h1, h2, h3, h4, h5, h6, h7, h8, h9, h10, h11, h12, h13, h14⟩ := hp.tables
    exact ⟨h1, h2, h3, h4, h5, h6, h7, h8, h9, h10, h11, vector_set_all (stagedWindow_inRange staged) h12, h13, h14⟩
  | topupMerged i g _ kanban =>
    have merged : Work s (s.mergeOpen i g .topup) := modOpen_work s i _
    exact .ofWork (merged.trans (raiseOrdered_work g (by rw [merged.cfg]; exact kanban)))
  | topupCreated i g _ kanban =>
    have created : Work s (s.createOpen i g .topup) := createOpen_work s i g _
    exact .ofWork (created.trans (raiseOrdered_work g (by rw [created.cfg]; exact kanban)))
  | topupRefused i g => exact .ofWork (refuseLine_work ..)
  | cancelDemand i x => exact .ofWork ((removeOpen_work s i).trans (lowerOrdered_work ..))
  | clear i _ agreeing => exact .ofWork (clearSlot_work agreeing)
  | startCold | runReset => exact (runReset_retains s).trans (enter_retains ..)
  | startAgain => exact enter_retains ..
  | stop => exact (settleRoutes_retains s).trans (enter_retains ..)

/-- A step makes one effect on a state with the same laws, and moves the port units lawfully. -/
theorem step_effect {s t : State} (h : step s = .next t) :
    t = s ∨ ∃ rest, StepsTo { s with pending := rest } t := by
  unfold step at h
  split at h
  · cases h; exact .inl rfl
  next c rest _ => exact .inr ⟨rest, exec_steps h⟩

theorem step_retains {s t : State} (h : step s = .next t) : Retains s t := by
  obtain rfl | ⟨rest, ⟨u, effect, same, ports⟩⟩ := step_effect h
  · exact .refl t
  · have taken : Retains s { s with pending := rest } := .ofParts rfl rfl rfl rfl rfl rfl rfl rfl fun _ => ⟨id, id⟩
    refine (taken.trans (effect_retains effect)).trans ?_
    rw [same]
    exact .ofParts rfl rfl rfl rfl rfl rfl rfl rfl ports

end Sys2Proof.Machine

open Sys2Proof Sys2Proof.Machine

/-- Settles O6: every effect retains the tables' ranges and the routes' timing. -/
theorem tablesAndTimingStayInRange : Obligations.TablesAndTimingStayInRange := by
  intro s t law taken
  obtain ⟨tables, timing⟩ := (step_retains taken).plan ⟨law.tables, law.timing⟩
  exact ⟨tables, timing⟩

/-- Settles O7: every effect retains the queues' laws, the port units' and the counters' range. -/
theorem portsNoticesAndCountersStayLawful : Obligations.PortsNoticesAndCountersStayLawful := by
  intro s t law taken
  have keeps := step_retains taken
  have lost : ∀ p, (t.queue p).lost ≤ 65535 := keeps.lost fun p => (law.counters.ports p).2
  refine ⟨keeps.notices law.notices, fun p => (keeps.ports p).1 (law.ports p), ?_⟩
  exact {
    slots := fun i => (keeps.slot ⟨law.tables, law.timing⟩ i ⟨law.estimate i, law.checker i, law.counters.slots i⟩).counters
    routes := fun r => keeps.routes r (law.counters.routes r)
    demand := ⟨keeps.dropped law.counters.demand.1, keeps.refused law.counters.demand.2⟩
    ports := fun p => ⟨(keeps.ports p).2 (law.counters.ports p).1, lost p⟩ }

/-- Settles O9: every effect retains each slot's estimate and check. -/
theorem estimatesAndChecksStayLawful : Obligations.EstimatesAndChecksStayLawful := by
  intro s t law taken i
  have lawful := (step_retains taken).slot ⟨law.tables, law.timing⟩ i ⟨law.estimate i, law.checker i, law.counters.slots i⟩
  exact ⟨lawful.estimate, lawful.checker⟩
end

section
/-!
PROOFS that every step keeps the sequence lists consecutive, COLD empty and no route event due outside ACTIVE (O8).
-/

namespace Sys2Proof.Machine

open Sys2Proof

/-! ## The sequence lists -/

theorem LineSequence.empty_law : ({} : LineSequence).Law := ⟨Nat.zero_le _, .nil, fun _ h => nomatch h⟩

/-- Appending the unit after the last announced one keeps a list's law (R24, R27). -/
theorem LineSequence.Law.append {q : LineSequence} (h : q.Law) (room : q.units.length < 64) {u : AnnouncedUnit}
    (next : ∀ last, q.last = some last → u.seq = last + 1) : (q.append u).Law where
  count := by simp only [LineSequence.append, List.length_append, List.length_singleton]; omega
  consecutive := by
    refine List.isChain_append.mpr ⟨h.consecutive, .singleton u, fun x hx y hy => ?_⟩
    cases hy
    exact next x.seq (h.tail x hx)
  tail v hv := by
    simp only [LineSequence.append, List.getLast?_append, List.getLast?_singleton, Option.some_or, Option.some.injEq] at hv
    rw [← hv]; rfl

/-! ## What leaves lists, mode and due events -/

/-- From s to t the sequence lists, the mode and every route's due event stay. -/
structure Steady (s t : State) : Prop where
  seqs : t.seqs = s.seqs
  mode : t.mode = s.mode
  due : ∀ r, (t.route r).due = (s.route r).due

namespace Steady

variable {s t u : State}

theorem refl (s : State) : Steady s s := ⟨rfl, rfl, fun _ => rfl⟩

theorem trans (h : Steady s t) (k : Steady t u) : Steady s u :=
  ⟨k.seqs.trans h.seqs, k.mode.trans h.mode, fun r => (k.due r).trans (h.due r)⟩

theorem ofWork (h : Work s t) : Steady s t := ⟨h.seqs, h.mode, fun r => by rw [h.route]⟩

theorem modRoute (s : State) (r : RouteId) {f : Route → Route} (h : ∀ x, (f x).due = x.due) : Steady s (s.modRoute r f) :=
  ⟨rfl, rfl, fun k => by
    by_cases hk : k = r
    · subst hk; rw [State.route_modRoute_self, h]
    · rw [State.route_modRoute_ne _ _ hk]⟩

theorem modBuffer (s : State) (r : RouteId) (h : Half) (f : Buffer → Buffer) : Steady s (s.modBuffer r h f) :=
  modRoute s r fun _ => rfl

/-- Lines handed back with their notice. -/
theorem handBack (s : State) (r : RouteId) (h : Half) (sel : ManifestLine → Bool) (cls : ManifestLine → DemandClass)
    (lap : Lap) (cause : ReturnCause) (n : Nat) : Steady s ((s.handBack r h sel cls).tellReturned r lap cause n) := by
  refine .trans ?_ (.ofWork (tellReturned_work ..))
  unfold State.handBack
  exact (ofWork (foldl_returnPlanned_work ..)).trans (modBuffer ..)

theorem freed (s : State) (r : RouteId) (h : Half) : Steady s (s.modRoute r fun x => x.freed h) :=
  modRoute s r fun x => by rw [Route.freed_rest]

end Steady

/-! ## The apply -/

/-- An apply takes every route to its staged configuration (R160). -/
theorem State.applyImage_route (s : State) (line : Option Line) (mode : ApplyMode) (seq : SeqNo) (r : RouteId) :
    (s.applyImage line mode seq).route r = (s.route r).applied s.image.routes[r] := by
  have adjusted : (s.changedSlots.foldl State.adjustSlot s.applyGlobals.applyUsage.applyWindows.applyRoutes).route r =
      (s.route r).applied s.image.routes[r] := by
    rw [foldl_adjustSlot_rest]
    exact State.applyRoutes_route _ r
  unfold State.applyImage
  dsimp only
  rw [State.raise_route]
  split
  · exact adjusted
  · rw [(Work.foldl evaluate_work _ _).route]
    exact adjusted

theorem Route.applied_due (x : Route) (c : RouteConfig) : (x.applied c).due = x.due := by
  obtain ⟨-, e⟩ | ⟨-, -, e⟩ | ⟨-, -, e⟩ := x.applied_cases c <;> rw [e]

theorem Route.applied_buffers (x : Route) (c : RouteConfig) : (x.applied c).buffers = x.buffers := by
  obtain ⟨-, e⟩ | ⟨-, -, e⟩ | ⟨-, -, e⟩ := x.applied_cases c <;> rw [e]

theorem State.applyImage_buffer (s : State) (line : Option Line) (mode : ApplyMode) (seq : SeqNo) (r : RouteId) (h : Half) :
    (s.applyImage line mode seq).buffer r h = s.buffer r h := by
  unfold State.buffer
  rw [State.applyImage_route, Route.applied_buffers]

theorem applyImage_steady (s : State) (line : Option Line) (mode : ApplyMode) (seq : SeqNo) :
    Steady s (s.applyImage line mode seq) where
  seqs := by rw [s.applyImage_rest]
  mode := by rw [s.applyImage_rest]
  due r := by rw [State.applyImage_route, Route.applied_due]

/-- The demand queue is empty. -/
def State.NoDemand (s : State) : Prop := s.demand.lines = []

/-- Nothing is cancelled in an empty queue (R56). -/
theorem State.NoDemand.cancelOpen {s : State} (h : s.NoDemand) (i : SlotId) (n : Nat) : (s.cancelOpen i n).NoDemand := by
  have lines : s.demand.lines = [] := h
  have none : s.cancelOpen i n = s := by simp [State.cancelOpen, State.openContainers, State.openLine, lines]
  rw [none]; exact h

theorem State.NoDemand.cancelIf {s : State} (h : s.NoDemand) (i : SlotId) (p : Prop) [Decidable p] (n : Nat) :
    (if p then s.cancelOpen i n else s).NoDemand := by
  split
  · exact h.cancelOpen i n
  · exact h

theorem State.NoDemand.adjustKanban {s : State} (h : s.NoDemand) (i : SlotId) (old new : SlotConfig) :
    (s.adjustKanban i old new).NoDemand := by
  have capped : (s.modSlot i fun x => { x with oh := min x.oh new.fullMp }).NoDemand := h
  unfold State.adjustKanban
  dsimp only
  split
  · exact (capped.cancelIf i _ _).cancelIf i _ _
  · exact (capped.cancelIf i _ _).cancelIf i _ _

/-- An adjustment leaves an empty queue empty. -/
theorem State.NoDemand.adjustSlot {s : State} (h : s.NoDemand) (i : SlotId) : (s.adjustSlot i).NoDemand := by
  have written : ((s.modSlot i fun x => { x with cfg := s.stagedConfig i }).modImage
      fun m => { m with slots := m.slots.set i (s.stagedConfig i) }).NoDemand := h
  unfold State.adjustSlot
  dsimp only
  split
  · exact written.adjustKanban i _ _
  · exact written.cancelOpen i _
  · exact written
  · split <;> exact written

/-- An apply in COLD, which lets no slot evaluate, leaves an empty queue empty (R160). -/
theorem State.applyImage_empty {s : State} (cold : s.mode = .cold) (h : s.demand.lines = []) (line : Option Line)
    (mode : ApplyMode) (seq : SeqNo) : (s.applyImage line mode seq).demand.lines = [] := by
  have adjusted (is : List SlotId) (t : State) (ht : t.NoDemand) : (is.foldl State.adjustSlot t).NoDemand :=
    List.foldlRecOn is State.adjustSlot ht fun u hu i _ => hu.adjustSlot i
  unfold State.applyImage
  dsimp only
  rw [if_pos cold, State.raise_demand]
  refine adjusted _ _ ?_
  unfold State.NoDemand
  rw [State.applyRoutes_rest]
  exact h

/-! ## Settling -/

theorem MovesRoute.mode {r : RouteId} {s t : State} (h : MovesRoute r s t) : t.mode = s.mode := by rw [h.rest]
theorem MovesRoute.seqs {r : RouteId} {s t : State} (h : MovesRoute r s t) : t.seqs = s.seqs := by rw [h.rest]

/-- A wrap leaves no wrap due (R84). -/
theorem Route.wrapped_due (x : Route) : x.wrapped.due ≠ some .wrap := by
  obtain ⟨z, hz⟩ : ∃ z : Route, x.wrapped.due = if z.cfg.timing.enabled then z.cfg.timing.eventAt 0 else none := ⟨_, rfl⟩
  rw [hz]
  split
  · exact fun e => (RouteTiming.eventAt_below e).2 rfl
  · exact fun e => nomatch e

/-- A point that is due is taken, and a wrap leaves at most a point due (R84 to R86, R89). -/
theorem State.takeDue_due (s : State) (r : RouteId) :
    ((s.takeDue r).route r).due ≠ some .wrap ∧
      ((s.route r).due ≠ some .wrap → ((s.takeDue r).route r).due = none) := by
  unfold State.takeDue
  split
  next h => rw [h]; exact ⟨fun h => (nomatch h), fun _ => rfl⟩
  next h =>
    refine ⟨fun e => ?_, fun hn => absurd h hn⟩
    rw [State.wrapPoint, State.route_modRoute_self] at e
    exact Route.wrapped_due _ e
  next => rw [State.buildPoint, State.route_modRoute_self]; exact ⟨fun h => (nomatch h), fun _ => rfl⟩
  next => rw [State.departurePoint, State.route_modRoute_self]; exact ⟨fun h => (nomatch h), fun _ => rfl⟩
  next => rw [State.skippedPoint, State.route_modRoute_self]; exact ⟨fun h => (nomatch h), fun _ => rfl⟩

theorem State.settleRoute_due (s : State) (r : RouteId) : ((s.settleRoute r).route r).due = none :=
  ((s.takeDue r).takeDue_due r).2 (s.takeDue_due r).1

/-- Settling leaves nothing due. -/
theorem State.settleRoutes_due (s : State) (r : RouteId) : (s.settleRoutes.route r).due = none := by
  obtain ⟨-, settled, -⟩ := foldl_eachRoute (f := State.settleRoute) (Q := fun _ => True) (R := fun _ _ y => y.due = none)
    (fun t k _ => (settleRoute_moves t k).others) (fun _ _ _ => trivial) (fun t k _ => t.settleRoute_due k) routeIds s
    routeIds_nodup trivial
  exact settled r (mem_routeIds r)

theorem State.settleRoutes_mode (s : State) : s.settleRoutes.mode = s.mode := by rw [s.settleRoutes_rest]
theorem State.settleRoutes_seqs (s : State) : s.settleRoutes.seqs = s.seqs := by rw [s.settleRoutes_rest]

/-! ## Every step -/

/-- Lawful lists, a lawful COLD, and nothing due outside ACTIVE. -/
structure State.ListsLaw (s : State) : Prop where
  sequence : ∀ l, (s.seq l).Law
  cold : s.ColdLaw

namespace State.ListsLaw

variable {s t : State}

/-- In ACTIVE only the lists are judged. -/
theorem ofActive (active : t.mode = .active) (sequence : ∀ l, (t.seq l).Law) : t.ListsLaw where
  sequence := sequence
  cold := by
    have awake : t.mode ≠ .cold := by rw [active]; decide
    exact ⟨fun h => absurd h awake, fun h => absurd h awake, fun h => absurd h awake, fun h => absurd active h⟩

theorem sequence_congr (h : s.ListsLaw) (seqs : t.seqs = s.seqs) (l : Line) : (t.seq l).Law := by
  unfold State.seq; rw [seqs]; exact h.sequence l

/-- Lists, mode and due events stay, and what is empty in COLD stays so. -/
theorem steady (h : s.ListsLaw) (st : Steady s t) (lines : s.mode = .cold → s.demand.lines = [] → t.demand.lines = [])
    (free : s.mode = .cold → ∀ r k, (s.buffer r k).state = .free → (t.buffer r k).state = .free) : t.ListsLaw where
  sequence := h.sequence_congr st.seqs
  cold := {
    manifests := fun hc r k => by rw [st.mode] at hc; exact free hc r k (h.cold.manifests hc r k)
    demand := fun hc => by rw [st.mode] at hc; exact lines hc (h.cold.demand hc)
    units := fun hc l => by
      rw [st.mode] at hc
      unfold State.seq
      rw [st.seqs]
      exact h.cold.units hc l
    quiet := fun hm r => by rw [st.mode] at hm; rw [st.due]; exact h.cold.quiet hm r }

/-- Outside COLD nothing is asked of the demand queue and the buffers. -/
theorem awake (h : s.ListsLaw) (awake : s.mode ≠ .cold) (st : Steady s t) : t.ListsLaw :=
  h.steady st (fun hc => absurd hc awake) fun hc => absurd hc awake

/-- A route event is due in ACTIVE alone. -/
theorem active (h : s.ListsLaw) {r : RouteId} {e : RouteEvent} (due : (s.route r).due = some e) : s.mode = .active := by
  by_contra hm
  rw [h.cold.quiet hm r] at due
  cases due

end State.ListsLaw

/-- A change of one route that leaves its due event and its buffers' states. -/
theorem State.ListsLaw.flag {s : State} (h : s.ListsLaw) (r : RouteId) {f : Route → Route} (due : ∀ x, (f x).due = x.due)
    (buffers : ∀ x, (f x).buffers = x.buffers) : (s.modRoute r f).ListsLaw :=
  h.steady (.modRoute s r due) (fun _ h => h) fun _ k j hj => by
    unfold State.buffer at *
    by_cases hk : k = r
    · subst hk; rw [State.route_modRoute_self, buffers]; exact hj
    · rw [State.route_modRoute_ne _ _ hk]; exact hj

theorem runReset_lists (s : State) {m : DeviceMode} (hm : m ≠ .cold) : (s.runReset.enter m).ListsLaw where
  sequence l := by
    show (s.runReset.seq l).Law
    rw [State.runReset_seq]
    exact LineSequence.empty_law
  cold := ⟨fun h => absurd h hm, fun h => absurd h hm, fun h => absurd h hm, fun _ r => by
    show (s.runReset.route r).due = none
    rw [State.runReset_route, Route.runReset_eq]⟩

theorem takeAdvance_lists {s : State} (law : s.ListsLaw) (active : s.mode = .active) (l : Line) (seq : SeqNo) (v : Variant)
    (mark : Bool) : (s.takeAdvance l seq v mark).ListsLaw := by
  have disarmed (t : State) (a : ApplyState) : Steady t { t with applyState := a } := ⟨rfl, rfl, fun _ => rfl⟩
  have later (t : State) (m : Bool) (c : AdvanceCase) : Steady t (((t.applyAtMark l m seq).drawLine l v seq).starveLine l v c seq) := by
    refine .trans (.trans ?_ (.ofWork (drawLine_work ..))) (.ofWork (starveLine_work ..))
    unfold State.applyAtMark
    split
    · exact (applyImage_steady t ..).trans (disarmed ..)
    · exact .refl t
  have settled : (s.settleList l seq (settle (s.seq l).units seq)).ListsLaw := by
    rw [State.settleList_rest]
    refine .ofActive active fun k => ?_
    by_cases hk : k = l
    · subst hk
      show ((s.seqs.modify k _).get k).Law
      rw [PerLine.get_modify_self]
      exact (law.sequence k).suffix (settle_rest ..)
    · show ((s.seqs.modify l _).get k).Law
      rw [PerLine.get_modify_ne _ _ hk]
      exact law.sequence k
  have stays : (s.settleList l seq (settle (s.seq l).units seq)).mode = .active := by rw [State.settleList_rest]; exact active
  exact settled.awake (by rw [stays]; decide) (later ..)

theorem effect_lists {s u : State} (lawful : s.Lawful) (h : Effect s u) : u.ListsLaw := by
  have law : s.ListsLaw := ⟨lawful.sequence, lawful.cold⟩
  have announced (l : Line) {t : State} (seqs : t.seqs = s.seqs) (room : (s.seq l).units.length < 64) (x : AnnouncedUnit)
      (next : ∀ last, (s.seq l).last = some last → x.seq = last + 1) (k : Line) :
      ((t.modSeq l fun q => q.append x).seq k).Law := by
    by_cases hk : k = l
    · subst hk
      rw [State.seq_modSeq_self]
      unfold State.seq at room next ⊢
      rw [seqs]
      exact (law.sequence k).append room next
    · rw [State.seq_modSeq_ne _ _ hk]
      exact law.sequence_congr seqs k
  cases h with
  | nothing => exact law
  | powerOn v => exact ⟨(s.poweredOn_lawful v).sequence, (s.poweredOn_lawful v).cold⟩
  | edge | gate | readNotices | setNoticeMode | stageSlot | stageUsage | stageRoute | stageWindow | stageGlobals | arm | divert =>
    exact law.steady ⟨rfl, rfl, fun _ => rfl⟩ (fun _ h => h) fun _ _ _ h => h
  | decisecond active =>
    have counted (t : State) : t.tickClocks.countRoutes.mode = t.mode ∧ t.tickClocks.countRoutes.seqs = t.seqs := ⟨rfl, rfl⟩
    obtain ⟨mode, seqs⟩ := counted s.settleRoutes
    exact .ofActive (by rw [mode, s.settleRoutes_mode, active]) (law.sequence_congr (by rw [seqs, s.settleRoutes_seqs]))
  | wrap r due => exact .ofActive (law.active due) law.sequence
  | build r due =>
    have moves := buildPoint_moves s r
    exact .ofActive (moves.mode.trans (law.active due)) (law.sequence_congr moves.seqs)
  | departure r due =>
    have moves := departurePoint_moves s r
    exact .ofActive (moves.mode.trans (law.active due)) (law.sequence_congr moves.seqs)
  | skipped r due => exact .ofActive (law.active due) law.sequence
  | announceFirst l seq v mark active room unanchored =>
    exact .ofActive active (announced l rfl room _ fun last h => by rw [unanchored] at h; cases h)
  | announceNext l seq v mark active room last anchored next =>
    exact .ofActive active (announced l rfl room _ fun n h => by rw [anchored] at h; cases h; exact next)
  | advance l seq v mark active => exact takeAdvance_lists law active l seq v mark
  | snapshot bank states active => exact law.awake (by rw [active]; decide) (.ofWork (snapshot_work ..))
  | depart r h awake => exact law.awake awake ((Steady.modBuffer ..).trans (.modRoute _ r fun _ => rfl))
  | arrive r h id k awake => exact law.awake awake ((Steady.handBack ..).trans (.modRoute _ r fun _ => rfl))
  | dropMissed r => exact law.flag r (fun _ => rfl) fun _ => rfl
  | dropHit r h n y awake => exact law.awake awake ((Steady.modBuffer ..).trans (.ofWork (deliverLine_work ..)))
  | lapEnd r h awake => exact law.awake awake ((Steady.handBack ..).trans (.freed ..))
  | beginPick r h awake | loadConfirm r h awake => exact law.awake awake (.modBuffer ..)
  | shortPick r h n x picked awake =>
    exact law.awake awake (((Steady.modBuffer ..).trans (.ofWork (returnLine_work ..))).trans (.ofWork (tellReturned_work ..)))
  | late r on => exact law.flag r (fun _ => rfl) fun _ => rfl
  | hold r on => exact law.flag r (fun _ => rfl) fun _ => rfl
  | apply =>
    exact law.steady (applyImage_steady s ..) (fun cold h => s.applyImage_empty cold h ..) fun _ r k h => by
      rw [State.applyImage_buffer]; exact h
  | topupMerged i g awake kanban =>
    have merged : Work s (s.mergeOpen i g .topup) := modOpen_work s i _
    exact law.awake awake (.ofWork (merged.trans (raiseOrdered_work g (by rw [merged.cfg]; exact kanban))))
  | topupCreated i g awake kanban =>
    have created : Work s (s.createOpen i g .topup) := createOpen_work s i g _
    exact law.awake awake (.ofWork (created.trans (raiseOrdered_work g (by rw [created.cfg]; exact kanban))))
  | topupRefused i g =>
    have refused : Work s (s.refuseLine i .topup g) := refuseLine_work ..
    refine law.steady (.ofWork refused) (fun _ h => ?_) fun _ r k h => ?_
    · unfold State.refuseLine; split <;> exact h
    · unfold State.buffer; rw [refused.route]; exact h
  | cancelDemand i x line =>
    refine law.awake (fun hc => ?_) (.ofWork ((removeOpen_work s i).trans (lowerOrdered_work ..)))
    simp [State.openLine, law.cold.demand hc] at line
  | cancelManifest r h live =>
    exact law.awake (fun hc => live (law.cold.manifests hc r h)) ((Steady.handBack ..).trans (.freed ..))
  | clear i awake agreeing => exact law.awake awake (.ofWork (clearSlot_work agreeing))
  | startCold | runReset => exact runReset_lists s (by decide)
  | startAgain => exact .ofActive rfl (law.sequence_congr rfl)
  | stop active =>
    have entered (t : State) : (t.enter .standby).seqs = t.seqs ∧ ∀ r, (t.enter .standby).route r = t.route r :=
      ⟨rfl, fun _ => rfl⟩
    obtain ⟨seqs, route⟩ := entered s.settleRoutes
    exact ⟨law.sequence_congr (seqs.trans s.settleRoutes_seqs),
      ⟨fun h => (nomatch h), fun h => (nomatch h), fun h => (nomatch h), fun _ r => by rw [route]; exact s.settleRoutes_due r⟩⟩

/-- The waiting commands are part of no law. -/
theorem State.Lawful.withPending {s : State} (h : s.Lawful) (q : List Instr) : ({ s with pending := q } : State).Lawful := by
  obtain ⟨⟨h1, h2, h3, h4, h5, h6, h7, h8, h9, h10, h11, h12, h13, h14⟩, h15, ⟨h16, h17, h18, h19⟩, h20, h21, h22, ⟨h23, h24⟩, h25,
    h26, h27, ⟨h28, h29, h30, h31⟩, h32, h33, ⟨h34, h35, h36, h37⟩⟩ := h
  exact ⟨⟨h1, h2, h3, h4, h5, h6, h7, h8, h9, h10, h11, h12, h13, h14⟩, h15, ⟨h16, h17, h18, h19⟩, h20, h21, h22, ⟨h23, h24⟩, h25,
    h26, h27, ⟨h28, h29, h30, h31⟩, h32, h33, ⟨h34, h35, h36, h37⟩⟩

/-- A law of the parts beside the waiting commands and the port units is kept by every step, if every effect keeps it. -/
theorem step_keeps {P : State → Prop}
    (rest : ∀ (s : State) (q : List Instr) (u : PerPort PortUnit), P s → P { s with pending := q, ports := u })
    (effect : ∀ {s u : State}, s.Lawful → Effect s u → P u) {s t : State} (law : s.Lawful) (self : P s) (h : step s = .next t) :
    P t := by
  obtain rfl | ⟨q, ⟨u, made, same, -⟩⟩ := step_effect h
  · exact self
  · rw [same]
    exact rest u u.pending t.ports (effect (law.withPending q) made)

end Sys2Proof.Machine

open Sys2Proof Sys2Proof.Machine

/-- Settles O8: each effect keeps the lists lawful and COLD empty, and only in ACTIVE leaves an event due. -/
theorem sequencesAndColdStayLawful : Obligations.SequencesAndColdStayLawful := by
  intro s t law taken
  obtain ⟨sequence, cold⟩ : t.ListsLaw :=
    step_keeps (fun _ _ _ h => ⟨h.sequence, ⟨h.cold.manifests, h.cold.demand, h.cold.units, h.cold.quiet⟩⟩) effect_lists law
      ⟨law.sequence, law.cold⟩ taken
  exact ⟨sequence, cold⟩
end

section
/-!
PROOFS: a slot's OPEN line after each operation on the demand queue, and that each operation keeps a slot's account: ordered is its
open and its carried containers (R8), the carried ones given as a number.
-/

namespace Sys2Proof.Machine

open Sys2Proof

/-! ## Lines by slot -/

/-- With one line to a slot, a line of the queue is its slot's OPEN line. -/
theorem find_slot_of_mem {lines : List DemandLine} (h : (lines.map (·.slot)).Nodup) {x : DemandLine} (hx : x ∈ lines) :
    lines.find? (·.slot == x.slot) = some x := by
  induction lines with
  | nil => cases hx
  | cons y ys ih =>
    obtain ⟨hy, hys⟩ := List.nodup_cons.mp h
    rcases List.mem_cons.mp hx with rfl | hx
    · simp
    · have other : y.slot ≠ x.slot := fun e => hy (List.mem_map.mpr ⟨x, hx, e.symm⟩)
      rw [List.find?_cons_of_neg (by simpa using other)]
      exact ih hys hx

theorem State.openLine_of_mem {s : State} (law : s.demand.Law) {x : DemandLine} (hx : x ∈ s.demand.lines) :
    s.openLine x.slot = some x := find_slot_of_mem law.oneEach hx

theorem State.openLine_some {s : State} {i : SlotId} {x : DemandLine} (h : s.openLine i = some x) :
    x ∈ s.demand.lines ∧ x.slot = i := ⟨List.mem_of_find?_eq_some h, by simpa using List.find?_some h⟩

theorem State.openLine_congr {s t : State} (h : t.demand.lines = s.demand.lines) (i : SlotId) : t.openLine i = s.openLine i := by
  unfold State.openLine; rw [h]

@[simp] theorem State.modSlot_openLine (s : State) (i : SlotId) (f : Slot → Slot) (j : SlotId) :
    (s.modSlot i f).openLine j = s.openLine j := rfl

theorem State.modDemand_openLine (s : State) {f : DemandQueue → DemandQueue} (h : (f s.demand).lines = s.demand.lines)
    (j : SlotId) : (s.modDemand f).openLine j = s.openLine j := State.openLine_congr h j

@[simp] theorem State.countDropped_openLine (s : State) (n : Nat) (j : SlotId) : (s.countDropped n).openLine j = s.openLine j := rfl

@[simp] theorem State.lowerOrdered_openLine (s : State) (i : SlotId) (n : Nat) (j : SlotId) :
    (s.lowerOrdered i n).openLine j = s.openLine j := rfl

theorem DemandQueue.Law.congr {d e : DemandQueue} (h : d.Law) (same : e.lines = d.lines) : e.Law :=
  ⟨by rw [same]; exact h.count, by rw [same]; exact h.oneEach, by rw [same]; exact h.containers, by rw [same]; exact h.passes⟩

/-- From s to t no other slot's OPEN line moved. -/
def OnlyLine (s t : State) (i : SlotId) : Prop := ∀ j, j ≠ i → t.openLine j = s.openLine j

theorem OnlyLine.refl (s : State) (i : SlotId) : OnlyLine s s i := fun _ _ => rfl

theorem OnlyLine.trans {s t u : State} {i : SlotId} (h : OnlyLine s t i) (k : OnlyLine t u i) : OnlyLine s u i :=
  fun j hj => (k j hj).trans (h j hj)

theorem OnlyLine.ofLines {s t : State} (i : SlotId) (h : t.demand.lines = s.demand.lines) : OnlyLine s t i :=
  fun j _ => State.openLine_congr h j

/-! ## A change of the queue's lines that keeps their slots -/

/-- A queue whose lines are changed one by one, keeping their slots, keeps its law if each line's ranges are kept. -/
theorem DemandQueue.Law.map {d e : DemandQueue} (h : d.Law) {g : DemandLine → DemandLine} (lines : e.lines = d.lines.map g)
    (slot : ∀ x, (g x).slot = x.slot)
    (range : ∀ x ∈ d.lines, 1 ≤ (g x).containers ∧ (g x).containers ≤ 4 ∧ (g x).passes ≤ 255) : e.Law where
  count := by rw [lines, List.length_map]; exact h.count
  oneEach := by
    have : ((d.lines.map g).map (·.slot)) = d.lines.map (·.slot) := by
      rw [List.map_map]
      exact List.map_congr_left fun x _ => slot x
    rw [lines, this]; exact h.oneEach
  containers y hy := by
    rw [lines] at hy
    obtain ⟨x, hx, rfl⟩ := List.mem_map.mp hy
    exact ⟨(range x hx).1, (range x hx).2.1⟩
  passes y hy := by
    rw [lines] at hy
    obtain ⟨x, hx, rfl⟩ := List.mem_map.mp hy
    exact (range x hx).2.2

theorem State.openLine_map {s t : State} {g : DemandLine → DemandLine} (lines : t.demand.lines = s.demand.lines.map g)
    (slot : ∀ x, (g x).slot = x.slot) (j : SlotId) : t.openLine j = (s.openLine j).map g := by
  unfold State.openLine
  rw [lines, List.find?_map]
  congr 1
  exact congrArg (fun p => List.find? p s.demand.lines) (funext fun x => by simp [slot])

/-! ## Changing, removing, taking -/

variable (s : State) (i : SlotId)

/-- What changing a slot's line where it stands does to one line of the queue. -/
def DemandLine.ifOf (i : SlotId) (f : DemandLine → DemandLine) (x : DemandLine) : DemandLine := if x.slot == i then f x else x

theorem DemandLine.ifOf_slot {i : SlotId} {f : DemandLine → DemandLine} (slot : ∀ x, (f x).slot = x.slot) (x : DemandLine) :
    (x.ifOf i f).slot = x.slot := by
  unfold DemandLine.ifOf
  split
  · exact slot x
  · rfl

/-- A slot's OPEN line changed where it stands, the others' as they were. -/
theorem State.modOpen_openLine {f : DemandLine → DemandLine} (slot : ∀ x, (f x).slot = x.slot) (j : SlotId) :
    (s.modOpen i f).openLine j = if j = i then (s.openLine i).map f else s.openLine j := by
  rw [State.openLine_map (g := DemandLine.ifOf i f) rfl (DemandLine.ifOf_slot slot)]
  by_cases hj : j = i
  · subst hj
    rw [if_pos rfl]
    cases hl : s.openLine j with
    | none => rfl
    | some x => simp [DemandLine.ifOf, (State.openLine_some hl).2]
  · rw [if_neg hj]
    cases hl : s.openLine j with
    | none => rfl
    | some x => simp [DemandLine.ifOf, (State.openLine_some hl).2, hj]

theorem State.modOpen_law {f : DemandLine → DemandLine} (slot : ∀ x, (f x).slot = x.slot) (law : s.demand.Law)
    (range : ∀ x, s.openLine i = some x → 1 ≤ (f x).containers ∧ (f x).containers ≤ 4 ∧ (f x).passes ≤ 255) :
    (s.modOpen i f).demand.Law := by
  refine law.map (g := DemandLine.ifOf i f) rfl (DemandLine.ifOf_slot slot) fun x hx => ?_
  unfold DemandLine.ifOf
  split
  next h => exact range x (by rw [← State.openLine_of_mem law hx, eq_of_beq h])
  · exact ⟨(law.containers x hx).1, (law.containers x hx).2, law.passes x hx⟩

/-- A removed slot has no OPEN line; the others keep theirs. -/
theorem State.removeOpen_openLine (j : SlotId) : (s.removeOpen i).openLine j = if j = i then none else s.openLine j := by
  show (s.demand.lines.filter (·.slot != i)).find? (·.slot == j) = _
  rw [List.find?_filter]
  split
  next h =>
    refine List.find?_eq_none.mpr fun x _ => ?_
    simp [h]
  next h =>
    refine congrArg (fun p => List.find? p s.demand.lines) (funext fun x => ?_)
    by_cases hx : x.slot = j
    · simp [hx, h]
    · simp [hx]

theorem State.removeOpen_law (law : s.demand.Law) : (s.removeOpen i).demand.Law := by
  have sub : (s.removeOpen i).demand.lines.Sublist s.demand.lines := List.filter_sublist
  exact ⟨sub.length_le.trans law.count, law.oneEach.sublist (sub.map _), fun x hx => law.containers x (sub.subset hx),
    fun x hx => law.passes x (sub.subset hx)⟩

theorem State.removeOpen_only : OnlyLine s (s.removeOpen i) i := fun j hj => by rw [State.removeOpen_openLine, if_neg hj]

theorem State.modOpen_only {f : DemandLine → DemandLine} (slot : ∀ x, (f x).slot = x.slot) : OnlyLine s (s.modOpen i f) i :=
  fun j hj => by rw [State.modOpen_openLine s i slot, if_neg hj]

/-- What is left of a line after n of its containers are taken (R50, R56). -/
def DemandLine.less (x : DemandLine) (n : Nat) : Option DemandLine :=
  if x.containers ≤ n then none else some { x with containers := x.containers - n }

theorem State.openContainers_eq {s : State} {i : SlotId} {x : DemandLine} (h : s.openLine i = some x) :
    s.openContainers i = x.containers := by simp [State.openContainers, h]

theorem State.openContainers_none {s : State} {i : SlotId} (h : s.openLine i = none) : s.openContainers i = 0 := by
  simp [State.openContainers, h]

/-- Taking containers leaves what is left of the slot's line, and the other lines. -/
theorem State.takeOpen_openLine (n : Nat) (j : SlotId) :
    (s.takeOpen i n).openLine j = if j = i then (s.openLine i).bind (·.less n) else s.openLine j := by
  unfold State.takeOpen
  cases hl : s.openLine i with
  | none =>
    rw [if_pos (by rw [State.openContainers_none hl]; exact Nat.zero_le _), State.removeOpen_openLine]
    rfl
  | some x =>
    rw [State.openContainers_eq hl]
    split
    next h => rw [State.removeOpen_openLine]; simp [DemandLine.less, h]
    next h =>
      rw [State.modOpen_openLine s i (f := fun x => { x with containers := x.containers - n }) fun _ => rfl, hl]
      simp [DemandLine.less, h]

theorem State.takeOpen_only (n : Nat) : OnlyLine s (s.takeOpen i n) i := fun j hj => by
  rw [State.takeOpen_openLine, if_neg hj]

theorem State.takeOpen_law (n : Nat) (law : s.demand.Law) : (s.takeOpen i n).demand.Law := by
  unfold State.takeOpen
  split
  · exact s.removeOpen_law i law
  next h =>
    refine s.modOpen_law i (fun _ => rfl) law fun x hx => ?_
    rw [State.openContainers_eq hx] at h
    have mem := (State.openLine_some hx).1
    exact ⟨by dsimp only; omega, (Nat.sub_le ..).trans (law.containers x mem).2, law.passes x mem⟩

/-! ## Creating -/

theorem State.judgeHigh_lines : (s.judgeHigh i).demand.lines = s.demand.lines := by
  unfold State.judgeHigh; split <;> rfl

/-- The line that a creation puts at the tail (R46, R57). -/
def State.newOpen (s : State) (i : SlotId) (n : Nat) (cls : DemandClass) : DemandLine :=
  ⟨i, n, cls, s.plant, 0, (s.mapSlot i).isNone⟩

theorem State.createOpen_lines (n : Nat) (cls : DemandClass) :
    (s.createOpen i n cls).demand.lines = s.demand.lines ++ [s.newOpen i n cls] := by
  unfold State.createOpen
  dsimp only
  rw [State.judgeHigh_lines]
  split <;> rfl

theorem State.judgeHigh_slots : (s.judgeHigh i).slots = s.slots := by
  unfold State.judgeHigh; split <;> rfl

/-- A creation clears the slot's ORDER_BLOCKED (R46). -/
theorem State.createOpen_slot (n : Nat) (cls : DemandClass) : (s.createOpen i n cls).slot i = { s.slot i with blocked := false } := by
  have slots (t : State) : (t.judgeHigh i).slot i = t.slot i := by unfold State.slot; rw [State.judgeHigh_slots]
  unfold State.createOpen
  dsimp only
  rw [slots]
  split
  · rw [State.raise_slot, State.slot_modSlot_self]; rfl
  · rw [State.slot_modSlot_self]; rfl

variable {s i}

theorem State.createOpen_openLine (fresh : s.openLine i = none) (n : Nat) (cls : DemandClass) :
    (s.createOpen i n cls).openLine i = some (s.newOpen i n cls) := by
  have fresh : s.demand.lines.find? (·.slot == i) = none := fresh
  unfold State.openLine
  rw [State.createOpen_lines, List.find?_append, fresh]
  simp [State.newOpen]

theorem State.createOpen_only (n : Nat) (cls : DemandClass) : OnlyLine s (s.createOpen i n cls) i := fun j hj => by
  unfold State.openLine
  rw [State.createOpen_lines, List.find?_append, List.find?_cons_of_neg (by simpa [State.newOpen] using Ne.symm hj)]
  simp

theorem State.createOpen_law (law : s.demand.Law) (fresh : s.openLine i = none) (room : s.demand.lines.length < 128) {n : Nat}
    (low : 1 ≤ n) (high : n ≤ 4) (cls : DemandClass) : (s.createOpen i n cls).demand.Law := by
  have other : ∀ x ∈ s.demand.lines, x.slot ≠ i := fun x hx => by simpa using List.find?_eq_none.mp fresh x hx
  refine ⟨?_, ?_, fun x hx => ?_, fun x hx => ?_⟩
  · rw [State.createOpen_lines, List.length_append]; exact room
  · rw [State.createOpen_lines, List.map_append]
    refine List.nodup_append.mpr ⟨law.oneEach, by simp, fun a ha b hb e => ?_⟩
    obtain ⟨x, hx, rfl⟩ := List.mem_map.mp ha
    refine other x hx (e.trans ?_)
    simpa [State.newOpen] using hb
  all_goals
    rw [State.createOpen_lines] at hx
    rcases List.mem_append.mp hx with hx | hx
  · exact law.containers x hx
  · rw [List.mem_singleton.mp hx]; exact ⟨low, high⟩
  · exact law.passes x hx
  · rw [List.mem_singleton.mp hx]; exact Nat.zero_le _

theorem State.refuseLine_lines (s : State) (i : SlotId) (cause : FullCause) (n : Nat) :
    (s.refuseLine i cause n).demand.lines = s.demand.lines := by
  unfold State.refuseLine; split <;> rfl

theorem State.refuseLine_openLine (s : State) (i : SlotId) (cause : FullCause) (n : Nat) (j : SlotId) :
    (s.refuseLine i cause n).openLine j = s.openLine j := State.openLine_congr (s.refuseLine_lines i cause n) j

theorem State.refuseLine_slot (s : State) (i j : SlotId) (cause : FullCause) (n : Nat) :
    (s.refuseLine i cause n).slot j = s.slot j := by
  unfold State.refuseLine; split <;> rfl

/-! ## Accounts -/

/-- A slot's orders agree with its OPEN line and with the containers carried to it (R8, R20). -/
structure Slot.Account (x : Slot) (line : Option DemandLine) (out : Nat) : Prop where
  count : x.cfg.kind = .kanban → x.ordered = (line.map (·.containers)).getD 0 + out
  bound : x.cfg.kind = .kanban → x.cfg.mc < x.ordered → line = none
  sequenced : x.cfg.kind = .sequenced → line = none
  blocked : x.blocked = true → line = none

/-- The demand queue is lawful, and a slot's orders agree with it and with a number of carried containers. -/
structure State.Account (s : State) (i : SlotId) (out : Nat) : Prop where
  law : s.demand.Law
  own : (s.slot i).Account (s.openLine i) out

/-- A slot with no OPEN line: ordered is what is carried. -/
theorem Slot.Account.bare {x : Slot} {out : Nat} (count : x.cfg.kind = .kanban → x.ordered = out) : x.Account none out :=
  ⟨fun hk => by rw [count hk]; simp, fun _ _ => rfl, fun _ => rfl, fun _ => rfl⟩

/-- A KANBAN slot with an OPEN line: ordered within MC, and no order blocked. -/
theorem Slot.Account.kanban {x : Slot} {y : DemandLine} {out : Nat} (hk : x.cfg.kind = .kanban)
    (count : x.ordered = y.containers + out) (bound : x.ordered ≤ x.cfg.mc) (blocked : x.blocked = false) :
    x.Account (some y) out :=
  ⟨fun _ => count, fun _ h => absurd h (Nat.not_lt.mpr bound), fun h => absurd (hk.symm.trans h) (by decide),
    fun h => by rw [blocked] at h; cases h⟩

/-- What an OPEN line says of its slot. -/
theorem Slot.Account.open {x : Slot} {y : DemandLine} {out : Nat} (h : x.Account (some y) out) :
    x.cfg.kind = .kanban ∧ x.ordered = y.containers + out ∧ x.ordered ≤ x.cfg.mc ∧ x.blocked = false := by
  have kanban : x.cfg.kind = .kanban := by
    cases hk : x.cfg.kind with
    | kanban => rfl
    | sequenced => exact nomatch h.sequenced hk
  refine ⟨kanban, h.count kanban, ?_, ?_⟩
  · by_contra hb
    exact nomatch h.bound kanban (by omega)
  · cases hb : x.blocked with
    | false => rfl
    | true => exact nomatch h.blocked hb

/-- A change that leaves the lines and the slot's configuration and orders keeps its account. -/
theorem State.Account.congr {s t : State} {i : SlotId} {out : Nat} (h : s.Account i out)
    (lines : t.demand.lines = s.demand.lines) (cfg : (t.slot i).cfg = (s.slot i).cfg)
    (ordered : (t.slot i).ordered = (s.slot i).ordered) (blocked : (t.slot i).blocked = (s.slot i).blocked) : t.Account i out where
  law := h.law.congr lines
  own := by
    rw [State.openLine_congr lines]
    exact ⟨by rw [cfg, ordered]; exact h.own.count, by rw [cfg, ordered]; exact h.own.bound, by rw [cfg]; exact h.own.sequenced,
      by rw [blocked]; exact h.own.blocked⟩

/-- Where one slot's record and line moved alone, every other account is kept. -/
theorem State.Account.others {s t : State} {i j : SlotId} {out : Nat} (h : s.Account j out) (hj : j ≠ i) (slot : OnlySlot s t i)
    (line : OnlyLine s t i) (law : t.demand.Law) : t.Account j out :=
  ⟨law, by rw [slot j hj, line j hj]; exact h.own⟩

theorem State.Account.unblock {s : State} {i : SlotId} {out : Nat} (h : s.Account i out) :
    (s.modSlot i fun x => { x with blocked := false }).Account i out where
  law := h.law
  own := by
    rw [State.slot_modSlot_self]
    exact ⟨h.own.count, h.own.bound, h.own.sequenced, fun e => nomatch e⟩

/-- Containers merged into a slot's line, or a new line for them. -/
theorem State.mergeOpen_openLine {x : DemandLine} (line : s.openLine i = some x) (n : Nat) (cls : DemandClass) :
    (s.mergeOpen i n cls).openLine i = some { x with containers := x.containers + n, cls := x.cls.better cls } := by
  unfold State.mergeOpen
  rw [State.modOpen_openLine s i (f := fun x => { x with containers := x.containers + n, cls := x.cls.better cls })
    (fun _ => rfl), if_pos rfl, line]
  rfl

theorem State.mergeOpen_only (s : State) (i : SlotId) (n : Nat) (cls : DemandClass) : OnlyLine s (s.mergeOpen i n cls) i :=
  s.modOpen_only i fun _ => rfl

theorem State.mergeOpen_law {x : DemandLine} (line : s.openLine i = some x) (law : s.demand.Law) {n : Nat}
    (high : x.containers + n ≤ 4) (cls : DemandClass) : (s.mergeOpen i n cls).demand.Law := by
  refine s.modOpen_law i (fun _ => rfl) law fun y hy => ?_
  rw [line] at hy
  cases hy
  have mem := (State.openLine_some line).1
  exact ⟨(law.containers x mem).1.trans (Nat.le_add_right ..), high, law.passes x mem⟩

/-! ## Orders -/

/-- Orders raised with the containers that a merge adds keep the account (R47, R48). -/
theorem State.Account.merged {out n : Nat} (h : s.Account i out) {x : DemandLine} (line : s.openLine i = some x)
    (room : (s.slot i).ordered + n ≤ (s.slot i).cfg.mc) (mc : (s.slot i).cfg.mc ≤ 4) (cls : DemandClass) :
    ((s.mergeOpen i n cls).raiseOrdered i n).Account i out := by
  have own := h.own
  rw [line] at own
  obtain ⟨kanban, count, -, blocked⟩ := own.open
  refine ⟨s.mergeOpen_law line h.law (by omega) cls, ?_⟩
  rw [State.raiseOrdered, State.modSlot_openLine, State.mergeOpen_openLine line, State.slot_modSlot_self]
  exact .kanban kanban (by show (s.slot i).ordered + n = x.containers + n + out; omega) room blocked

/-- Orders raised with the containers of a new line keep the account (R46, R48). -/
theorem State.Account.created {out n : Nat} (h : s.Account i out) (fresh : s.openLine i = none)
    (kanban : (s.slot i).cfg.kind = .kanban) (few : s.demand.lines.length < 128) (low : 1 ≤ n)
    (room : (s.slot i).ordered + n ≤ (s.slot i).cfg.mc) (mc : (s.slot i).cfg.mc ≤ 4) (cls : DemandClass) :
    ((s.createOpen i n cls).raiseOrdered i n).Account i out := by
  have count := h.own.count kanban
  rw [fresh] at count
  have count : (s.slot i).ordered = out := by simpa using count
  refine ⟨State.createOpen_law h.law fresh few low (by omega) cls, ?_⟩
  rw [State.raiseOrdered, State.modSlot_openLine, State.createOpen_openLine fresh,
    State.slot_modSlot_self, State.createOpen_slot]
  exact .kanban kanban (by show (s.slot i).ordered + n = n + out; omega) room rfl

theorem State.raiseOrdered_onlyLine (s : State) (i : SlotId) (n : Nat) : OnlyLine s (s.raiseOrdered i n) i := .ofLines i rfl

theorem State.merged_onlyLine (s : State) (i : SlotId) (n : Nat) (cls : DemandClass) :
    OnlyLine s ((s.mergeOpen i n cls).raiseOrdered i n) i := (s.mergeOpen_only i n cls).trans (State.raiseOrdered_onlyLine _ i n)

theorem State.created_onlyLine (s : State) (i : SlotId) (n : Nat) (cls : DemandClass) :
    OnlyLine s ((s.createOpen i n cls).raiseOrdered i n) i :=
  (State.createOpen_only n cls).trans (State.raiseOrdered_onlyLine _ i n)

/-- An order within MC keeps its slot's account (R19, R46). -/
theorem State.Account.order {out n : Nat} (h : s.Account i out) (kanban : (s.slot i).cfg.kind = .kanban) (low : 1 ≤ n)
    (room : (s.slot i).ordered + n ≤ (s.slot i).cfg.mc) (mc : (s.slot i).cfg.mc ≤ 4) : (s.order i n).Account i out := by
  unfold State.order
  cases line : s.openLine i with
  | some x => exact (h.merged line room mc _).unblock
  | none =>
    rw [if_neg (by simp)]
    split
    next few => exact h.created line kanban (by omega) low room mc _
    · have own := h.own
      rw [line] at own
      refine ⟨h.law.congr (State.refuseLine_lines ..), ?_⟩
      rw [State.refuseLine_openLine, State.modSlot_openLine, State.modDemand_openLine s rfl, line, State.refuseLine_slot,
        State.slot_modSlot_self]
      exact .bare fun hk => by simpa using own.count hk

theorem State.order_onlyLine (s : State) (i : SlotId) (n : Nat) : OnlyLine s (s.order i n) i := by
  unfold State.order
  split
  · exact (s.merged_onlyLine i n _).trans (.ofLines i rfl)
  · split
    · exact s.created_onlyLine i n _
    · exact .ofLines i (State.refuseLine_lines ..)

/-- A slot whose configuration its table allows. -/
def Slot.Planned (x : Slot) : Prop := x.cfg.InRange ∧ (x.cfg.kind = .kanban → x.cfg.Bounded)

theorem State.PlanLaw.planned {s : State} (h : s.PlanLaw) (i : SlotId) : (s.slot i).Planned := ⟨h.tables.slots i, h.tables.bounds i⟩

/-- A reorder evaluation keeps its slot's account (R18, R19). -/
theorem State.Account.evaluate {out : Nat} (h : s.Account i out) (plan : (s.slot i).Planned) : (s.evaluate i).Account i out := by
  cases hk : (s.slot i).cfg.kind with
  | sequenced => rw [State.evaluate_sequenced hk]; exact h
  | kanban =>
    by_cases quiet : (s.slot i).cfg.status ≠ .active ∨ (s.slot i).withheld = true ∨ (s.slot i).cfg.ropMp ≤ (s.slot i).position
    · rw [State.evaluate_quiet hk quiet]; exact h.unblock
    · simp only [not_or, Bool.not_eq_true, Nat.not_le, ne_eq, not_not] at quiet
      obtain ⟨active, withheld, below⟩ := quiet
      rw [State.evaluate_orders hk active withheld below]
      obtain ⟨-, low, room⟩ := Slot.orderSize_eq plan.1 (plan.2 hk) below
      exact h.order hk low room plan.1.mc_high

theorem State.evaluate_onlyLine (s : State) (i : SlotId) : OnlyLine s (s.evaluate i) i := by
  unfold State.evaluate
  dsimp only
  split
  · exact .refl s i
  · split
    · exact .ofLines i rfl
    · split
      · exact .ofLines i rfl
      · exact s.order_onlyLine i _

/-! ## Cancels -/

theorem State.lowerOrdered_onlyLine (s : State) (i : SlotId) (n : Nat) : OnlyLine s (s.lowerOrdered i n) i := .ofLines i rfl

theorem State.cancelOpen_onlyLine (s : State) (i : SlotId) (n : Nat) : OnlyLine s (s.cancelOpen i n) i := by
  unfold State.cancelOpen
  dsimp only
  split
  · exact .refl s i
  · exact (s.takeOpen_only i _).trans (State.lowerOrdered_onlyLine _ i _)

/-- The whole line removed with its containers keeps the account (R49). -/
theorem State.Account.removed {out : Nat} (h : s.Account i out) {x : DemandLine} (line : s.openLine i = some x) :
    ((s.removeOpen i).lowerOrdered i x.containers).Account i out := by
  have own := h.own
  rw [line] at own
  obtain ⟨-, count, -, -⟩ := own.open
  refine ⟨s.removeOpen_law i h.law, ?_⟩
  rw [State.lowerOrdered, State.modSlot_openLine, State.removeOpen_openLine, if_pos rfl,
    State.slot_modSlot_self]
  exact .bare fun _ => by show (s.slot i).ordered - x.containers = out; omega

/-- A cancel of up to n containers, as R56 says: without a line nothing; with one, what is left of it. -/
theorem State.cancelOpen_openLine (s : State) (i : SlotId) (n : Nat) (law : s.demand.Law) :
    (s.cancelOpen i n).openLine i = (s.openLine i).bind (·.less n) := by
  unfold State.cancelOpen
  dsimp only
  cases line : s.openLine i with
  | none => rw [State.openContainers_none line, if_pos (Nat.min_zero _), line]; rfl
  | some x =>
    have low := (law.containers x (State.openLine_some line).1).1
    rw [State.openContainers_eq line]
    split
    next h =>
      have : n = 0 := by omega
      subst this
      rw [line]
      simp [DemandLine.less]; omega
    next h =>
      rw [State.lowerOrdered, State.modSlot_openLine, State.takeOpen_openLine, if_pos rfl, line]
      show x.less _ = x.less n
      unfold DemandLine.less
      by_cases hx : x.containers ≤ n
      · rw [if_pos hx, if_pos (by omega)]
      · rw [if_neg hx, if_neg (by omega), Nat.min_eq_left (by omega)]

theorem State.cancelOpen_law (s : State) (i : SlotId) (n : Nat) (law : s.demand.Law) : (s.cancelOpen i n).demand.Law := by
  unfold State.cancelOpen
  dsimp only
  split
  · exact law
  · exact s.takeOpen_law i _ law

/-- A cancel moves ordered alone, which falls by the containers cancelled (R56). -/
theorem State.cancelOpen_record (s : State) (i : SlotId) (n : Nat) :
    (s.cancelOpen i n).slot i = { s.slot i with ordered := (s.slot i).ordered - min n (s.openContainers i) } := by
  have take (k : Nat) : (s.takeOpen i k).slot i = s.slot i := by unfold State.takeOpen; split <;> rfl
  unfold State.cancelOpen
  dsimp only
  split
  next h => rw [h, Nat.sub_zero]
  · rw [State.lowerOrdered, State.slot_modSlot_self, take]

/-! ## Returns -/

theorem State.dropped_slot (s : State) (i : SlotId) (n : Nat) :
    ((s.lowerOrdered i n).countDropped n).slot i = { s.slot i with ordered := (s.slot i).ordered - n } := by
  show (s.lowerOrdered i n).slot i = _
  rw [State.lowerOrdered, State.slot_modSlot_self]

/-- A return that is counted as dropped lowers ordered by it (R53, R54, R61). -/
theorem State.Account.dropped {out n : Nat} (h : s.Account i out) (carried : n ≤ out) :
    ((s.lowerOrdered i n).countDropped n).Account i (out - n) where
  law := h.law.congr rfl
  own := by
    rw [State.countDropped_openLine, State.lowerOrdered_openLine]
    rw [State.dropped_slot]
    refine ⟨fun hk => ?_, fun hk hb => h.own.bound hk (lt_of_lt_of_le hb (Nat.sub_le ..)), h.own.sequenced, h.own.blocked⟩
    have := h.own.count hk
    show (s.slot i).ordered - n = _
    omega

theorem State.dropped_onlyLine (s : State) (i : SlotId) (n : Nat) : OnlyLine s ((s.lowerOrdered i n).countDropped n) i :=
  .ofLines i rfl

/-- Placing returned containers of a KANBAN slot whose ordered is within MC (R53). -/
theorem State.Account.placeReturn {out n : Nat} (h : s.Account i out) (kanban : (s.slot i).cfg.kind = .kanban) (low : 1 ≤ n)
    (carried : n ≤ out) (room : (s.slot i).ordered ≤ (s.slot i).cfg.mc) (mc : (s.slot i).cfg.mc ≤ 4) (cls : DemandClass) :
    (s.placeReturn i n cls).Account i (out - n) := by
  have count := h.own.count kanban
  unfold State.placeReturn
  cases line : s.openLine i with
  | some x =>
    have own := h.own
    rw [line] at own count
    have count : (s.slot i).ordered = x.containers + out := count
    rw [if_pos (by rfl)]
    refine ⟨s.mergeOpen_law line h.law (by omega) cls, ?_⟩
    rw [State.mergeOpen_openLine line]
    exact .kanban kanban (by show (s.slot i).ordered = x.containers + n + (out - n); omega) room own.open.2.2.2
  | none =>
    rw [line] at count
    have count : (s.slot i).ordered = out := by simpa using count
    rw [if_neg (by simp)]
    split
    next few =>
      refine ⟨State.createOpen_law h.law line few low (by omega) cls, ?_⟩
      rw [State.createOpen_openLine line, State.createOpen_slot]
      exact .kanban kanban (by show (s.slot i).ordered = n + (out - n); omega) room rfl
    · exact (h.dropped carried).congr (State.refuseLine_lines ..) (by rw [State.refuseLine_slot])
        (by rw [State.refuseLine_slot]) (by rw [State.refuseLine_slot])

theorem State.placeReturn_onlyLine (s : State) (i : SlotId) (n : Nat) (cls : DemandClass) :
    OnlyLine s (s.placeReturn i n cls) i := by
  unfold State.placeReturn
  split
  · exact s.mergeOpen_only i n cls
  · split
    · exact State.createOpen_only n cls
    · exact (s.dropped_onlyLine i n).trans (.ofLines i (State.refuseLine_lines ..))

/-- A return of carried containers takes them off what is carried (R53, R54). -/
theorem State.Account.returnBins {out n : Nat} (h : s.Account i out) (low : 1 ≤ n) (carried : n ≤ out)
    (plan : (s.slot i).Planned) (cls : DemandClass) : (s.returnBins i n cls).Account i (out - n) := by
  have mc := plan.1.mc_high
  unfold State.returnBins
  dsimp only
  split
  next hk =>
    refine ⟨h.law.congr rfl, ?_⟩
    show (s.slot i).Account (s.openLine i) (out - n)
    rw [h.own.sequenced hk]
    exact .bare fun hk' => absurd (hk.symm.trans hk') (by decide)
  · exact h.dropped carried
  next hk _ =>
    have count := h.own.count hk
    split
    next above =>
      have none := h.own.bound hk above
      rw [none] at count
      have count : (s.slot i).ordered = out := by simpa using count
      split
      next all =>
        have : min n ((s.slot i).ordered - (s.slot i).cfg.mc) = n := by omega
        rw [this]
        exact h.dropped carried
      next some_ =>
        have cut : min n ((s.slot i).ordered - (s.slot i).cfg.mc) = (s.slot i).ordered - (s.slot i).cfg.mc := by omega
        rw [cut] at some_ ⊢
        have trimmed := h.dropped (n := (s.slot i).ordered - (s.slot i).cfg.mc) (by omega)
        have slot := s.dropped_slot i ((s.slot i).ordered - (s.slot i).cfg.mc)
        have placed := trimmed.placeReturn (n := n - ((s.slot i).ordered - (s.slot i).cfg.mc)) (by rw [slot]; exact hk) (by omega)
          (by omega) (by rw [slot]; show _ - _ ≤ (s.slot i).cfg.mc; omega) (by rw [slot]; exact mc) cls
        have rest : out - ((s.slot i).ordered - (s.slot i).cfg.mc) - (n - ((s.slot i).ordered - (s.slot i).cfg.mc)) = out - n := by
          omega
        rwa [rest] at placed
    · exact h.placeReturn hk low carried (by omega) mc cls

theorem State.returnBins_onlyLine (s : State) (i : SlotId) (n : Nat) (cls : DemandClass) : OnlyLine s (s.returnBins i n cls) i := by
  unfold State.returnBins
  dsimp only
  split
  · exact .ofLines i rfl
  · exact s.dropped_onlyLine i n
  · split
    · split
      · exact s.dropped_onlyLine i _
      · exact (s.dropped_onlyLine i _).trans (State.placeReturn_onlyLine _ i _ _)
    · exact s.placeReturn_onlyLine i n cls

/-- A delivered bin is one carried container less (R16). -/
theorem State.Account.deliverBin {out : Nat} (h : s.Account i (out + 1)) (plan : (s.slot i).Planned) :
    (s.deliverBin i).Account i out := by
  unfold State.deliverBin
  split
  next hk =>
    refine ⟨h.law, ?_⟩
    rw [h.own.sequenced hk]
    exact .bare fun hk' => absurd (hk.symm.trans hk') (by decide)
  next =>
    have counted : (s.modSlot i Slot.delivered).Account i out := by
      refine ⟨h.law, ?_⟩
      rw [State.slot_modSlot_self, State.modSlot_openLine]
      refine ⟨fun hk => ?_, fun hk hb => h.own.bound hk (lt_of_lt_of_le hb (Nat.sub_le ..)), h.own.sequenced, h.own.blocked⟩
      have := h.own.count hk
      show (s.slot i).ordered - 1 = _
      omega
    refine counted.evaluate ?_
    rw [State.slot_modSlot_self]
    exact plan

theorem State.deliverBin_onlyLine (s : State) (i : SlotId) : OnlyLine s (s.deliverBin i) i := by
  unfold State.deliverBin
  split
  · exact .refl s i
  · exact OnlyLine.trans (t := s.modSlot i Slot.delivered) (.ofLines i rfl) (State.evaluate_onlyLine _ i)

end Sys2Proof.Machine
end

section
/-!
PROOFS: the containers carried in live manifests, summed over the pool of buffers, and that each operation keeps every slot's account.
-/

namespace Sys2Proof.Machine

open Sys2Proof

/-! ## Sums over the pool -/

/-- The undelivered containers of a slot's bin lines in a list. -/
def owedBy (xs : List ManifestLine) (i : SlotId) : Nat := ((xs.filter (·.binOf i)).map (·.undelivered)).sum

/-- One line's part of it. -/
def ManifestLine.owes (x : ManifestLine) (i : SlotId) : Nat := if x.binOf i then x.undelivered else 0

theorem owedBy_nil (i : SlotId) : owedBy [] i = 0 := rfl

theorem owedBy_cons (x : ManifestLine) (xs : List ManifestLine) (i : SlotId) : owedBy (x :: xs) i = x.owes i + owedBy xs i := by
  unfold owedBy ManifestLine.owes
  rw [List.filter_cons]
  split <;> simp

theorem owedBy_append (xs ys : List ManifestLine) (i : SlotId) : owedBy (xs ++ ys) i = owedBy xs i + owedBy ys i := by
  simp [owedBy]

theorem owedBy_perm {xs ys : List ManifestLine} (h : xs.Perm ys) (i : SlotId) : owedBy xs i = owedBy ys i :=
  ((h.filter _).map _).sum_eq

theorem owedBy_eq_zero {xs : List ManifestLine} (h : ∀ x ∈ xs, x.undelivered = 0) (i : SlotId) : owedBy xs i = 0 := by
  refine List.sum_eq_zero fun n hn => ?_
  obtain ⟨x, hx, rfl⟩ := List.mem_map.mp hn
  exact h x (List.mem_of_mem_filter hx)

theorem owedBy_set {xs : List ManifestLine} {n : Nat} {x : ManifestLine} (h : xs[n]? = some x) (y : ManifestLine) (i : SlotId) :
    owedBy (xs.set n y) i + x.owes i = owedBy xs i + y.owes i := by
  induction xs generalizing n with
  | nil => simp at h
  | cons z zs ih =>
    cases n with
    | zero =>
      rw [List.getElem?_cons_zero] at h
      cases h
      rw [List.set_cons_zero, owedBy_cons, owedBy_cons]
      omega
    | succ n =>
      rw [List.getElem?_cons_succ] at h
      rw [List.set_cons_succ, owedBy_cons, owedBy_cons]
      have := ih h
      omega

/-- What a buffer's live manifest still carries for a slot, in bins. -/
def Buffer.binsFor (b : Buffer) (i : SlotId) : Nat := if b.live then owedBy b.lines i else 0

/-- What each buffer adds, summed over the pool. -/
def State.poolSum {M : Type} [AddCommMonoid M] (s : State) (w : Buffer → M) : M :=
  (routeIds.map fun r => w (s.buffer r .lower) + w (s.buffer r .upper)).sum

theorem Route.liveHalves_sum {M : Type} [AddCommMonoid M] (x : Route) (w : Half → M) :
    (x.liveHalves.map w).sum =
      (if (x.buffers.get .lower).live then w .lower else 0) + if (x.buffers.get .upper).live then w .upper else 0 := by
  unfold Route.liveHalves
  cases x.older <;> cases hl : (x.buffers.get .lower).live <;> cases hu : (x.buffers.get .upper).live <;>
    simp [Half.other, hl, hu, add_comm]

theorem State.binsOut_eq (s : State) (i : SlotId) : s.binsOut i = s.poolSum (·.binsFor i) := by
  unfold State.binsOut State.poolSum
  congr 1
  exact List.map_congr_left fun r _ => Route.liveHalves_sum ..

theorem State.poolSum_congr {M : Type} [AddCommMonoid M] {s t : State} {w : Buffer → M} (h : ∀ r k, w (t.buffer r k) = w (s.buffer r k)) :
    t.poolSum w = s.poolSum w := by
  unfold State.poolSum
  congr 1
  exact List.map_congr_left fun r _ => by rw [h, h]

/-- A sum over distinct things, one of them changed. -/
theorem sum_map_replace {α M : Type} [DecidableEq α] [AddCommMonoid M] {l : List α} (nodup : l.Nodup) {a : α} (ha : a ∈ l)
    {f g : α → M} (h : ∀ b, b ≠ a → f b = g b) : (l.map f).sum + g a = (l.map g).sum + f a := by
  have rest : ((l.erase a).map f).sum = ((l.erase a).map g).sum := by
    congr 1
    exact List.map_congr_left fun b hb => h b ((List.Nodup.mem_erase_iff nodup).mp hb).1
  rw [← List.sum_map_erase f ha, ← List.sum_map_erase g ha, rest]
  abel

/-- One buffer's change changes the sum over the pool by as much. -/
theorem State.poolSum_replace {M : Type} [AddCancelCommMonoid M] {s t : State} {r : RouteId} {k : Half} (w : Buffer → M)
    (other : w (t.buffer r k.other) = w (s.buffer r k.other)) (routes : ∀ q, q ≠ r → ∀ j, w (t.buffer q j) = w (s.buffer q j)) :
    t.poolSum w + w (s.buffer r k) = s.poolSum w + w (t.buffer r k) := by
  have changed := sum_map_replace routeIds_nodup (mem_routeIds r)
    (f := fun r => w (t.buffer r .lower) + w (t.buffer r .upper)) (g := fun r => w (s.buffer r .lower) + w (s.buffer r .upper))
    fun q hq => by rw [routes q hq, routes q hq]
  have both (u : State) : w (u.buffer r .lower) + w (u.buffer r .upper) = w (u.buffer r k) + w (u.buffer r k.other) := by
    cases k
    · rfl
    · exact add_comm ..
  simp only [both, other] at changed
  unfold State.poolSum
  rw [← add_assoc, ← add_assoc] at changed
  exact add_right_cancel changed

theorem State.binsOut_congr {s t : State} (h : ∀ r k, (t.buffer r k).live = (s.buffer r k).live ∧
    (t.buffer r k).lines = (s.buffer r k).lines) (i : SlotId) : t.binsOut i = s.binsOut i := by
  rw [State.binsOut_eq, State.binsOut_eq]
  refine State.poolSum_congr fun r k => ?_
  unfold Buffer.binsFor
  rw [(h r k).1, (h r k).2]

theorem State.binsOut_routes {s t : State} (h : t.routes = s.routes) (i : SlotId) : t.binsOut i = s.binsOut i :=
  State.binsOut_congr (fun r k => by unfold State.buffer State.route; rw [h]; exact ⟨rfl, rfl⟩) i

/-! ## Every slot's account -/

/-- Every slot's account stands, with a number of carried containers for each. -/
def State.Balanced (s : State) (out : SlotId → Nat) : Prop := ∀ i, s.Account i (out i)

/-- Every slot's account stands with what the live manifests carry. -/
def State.Even (s : State) : Prop := s.Balanced s.binsOut

theorem State.even_iff (s : State) : s.Even ↔ s.demand.Law ∧ s.OrderedLaw := by
  constructor
  · intro h
    exact ⟨(h 0).law, fun i => (h i).own.count, fun i => (h i).own.bound, fun i => (h i).own.sequenced, fun i => (h i).own.blocked⟩
  · intro ⟨law, count, bound, sequenced, blocked⟩ i
    exact ⟨law, count i, bound i, sequenced i, blocked i⟩

/-- Where one slot's record and line moved alone, the rest of the accounts stand. -/
theorem State.Balanced.one {s t : State} {out out' : SlotId → Nat} (h : s.Balanced out) {i : SlotId} (slot : OnlySlot s t i)
    (line : OnlyLine s t i) (own : t.Account i (out' i)) (outs : ∀ j, j ≠ i → out' j = out j) : t.Balanced out' := fun j => by
  by_cases hj : j = i
  · subst hj; exact own
  · rw [outs j hj]; exact (h j).others hj slot line own.law

/-- From s to t configurations stay, and accounts that stand stay so, whatever is carried. -/
structure Balances (s t : State) : Prop where
  cfg : ∀ i, (t.slot i).cfg = (s.slot i).cfg
  keep : (∀ i, (s.slot i).Planned) → ∀ out, s.Balanced out → t.Balanced out

namespace Balances

variable {s t u : State}

theorem refl (s : State) : Balances s s := ⟨fun _ => rfl, fun _ _ => id⟩

theorem trans (h : Balances s t) (k : Balances t u) : Balances s u :=
  ⟨fun i => (k.cfg i).trans (h.cfg i), fun plan out hs =>
    k.keep (fun i => by unfold Slot.Planned; rw [h.cfg]; exact plan i) out (h.keep plan out hs)⟩

theorem foldl {α : Type} {f : State → α → State} (h : ∀ s a, Balances s (f s a)) (as : List α) (s : State) :
    Balances s (as.foldl f s) := by
  induction as generalizing s with
  | nil => exact refl s
  | cons a as ih => exact (h s a).trans (ih _)

/-- A change that leaves the lines, the configurations and the orders. -/
theorem ofRecords (lines : t.demand.lines = s.demand.lines) (record : ∀ i, (t.slot i).cfg = (s.slot i).cfg ∧
    (t.slot i).ordered = (s.slot i).ordered ∧ (t.slot i).blocked = (s.slot i).blocked) : Balances s t :=
  ⟨fun i => (record i).1, fun _ _ h i => (h i).congr lines (record i).1 (record i).2.1 (record i).2.2⟩

theorem ofSlots (lines : t.demand.lines = s.demand.lines) (slots : t.slots = s.slots) : Balances s t :=
  ofRecords lines fun i => by unfold State.slot; rw [slots]; exact ⟨rfl, rfl, rfl⟩

theorem raise (s : State) (e : Event) : Balances s (s.raise e) := ofSlots rfl rfl

theorem modSlot (s : State) (i : SlotId) {f : Slot → Slot} (h : (f (s.slot i)).cfg = (s.slot i).cfg ∧
    (f (s.slot i)).ordered = (s.slot i).ordered ∧ (f (s.slot i)).blocked = (s.slot i).blocked) : Balances s (s.modSlot i f) :=
  ofRecords rfl fun j => by
    by_cases hj : j = i
    · subst hj; rw [State.slot_modSlot_self]; exact h
    · rw [State.slot_modSlot_ne _ _ hj]; exact ⟨rfl, rfl, rfl⟩

/-- A change of one slot's orders and line. -/
theorem ofOrders {i : SlotId} (moves : MovesOrders i s t) (line : OnlyLine s t i)
    (own : ∀ out, (s.slot i).Planned → s.Account i out → t.Account i out) : Balances s t :=
  ⟨moves.cfg, fun plan _ h => h.one moves.others line (own _ (plan i) (h i)) fun _ _ => rfl⟩

end Balances

variable (s : State) (i : SlotId)

theorem evaluate_balances : Balances s (s.evaluate i) :=
  .ofOrders (evaluate_moves i s) (s.evaluate_onlyLine i) fun _ plan h => h.evaluate plan

theorem applyDraw_balances (d : Nat) (seq : SeqNo) : Balances s (s.applyDraw i d seq) := by
  unfold State.applyDraw
  split
  · exact .refl s
  · dsimp only
    have drawn : Balances s (s.modSlot i fun x => x.drawn d) := .modSlot s i ⟨rfl, rfl, rfl⟩
    refine .trans ?_ (evaluate_balances _ i)
    split
    · exact (drawn.trans (.modSlot _ i ⟨rfl, rfl, rfl⟩)).trans (.raise _ _)
    · exact drawn

theorem drawLine_balances (l : Line) (v : Variant) (seq : SeqNo) : Balances s (s.drawLine l v seq) := by
  unfold State.drawLine
  split
  · exact .refl s
  · exact .foldl (fun t i => applyDraw_balances t i _ seq) _ s

theorem starveLine_balances (l : Line) (v : Variant) (case : AdvanceCase) (seq : SeqNo) :
    Balances s (s.starveLine l v case seq) := by
  rw [State.starveLine_eq]
  exact .foldl (fun _ _ => .raise ..) _ s

theorem rollback_balances : Balances s (s.rollback i) := .modSlot s i ⟨rfl, rfl, rfl⟩

theorem tellReturned_balances (r : RouteId) (lap : Lap) (cause : ReturnCause) (n : Nat) :
    Balances s (s.tellReturned r lap cause n) := by
  unfold State.tellReturned
  split
  · exact .refl s
  · exact .raise ..

theorem clearSlot_balances : Balances s (s.clearSlot i) :=
  (Balances.modSlot s i ⟨rfl, rfl, rfl⟩).trans (evaluate_balances _ i)

theorem refuseLine_balances (cause : FullCause) (n : Nat) : Balances s (s.refuseLine i cause n) :=
  .ofRecords (State.refuseLine_lines ..) fun j => by rw [State.refuseLine_slot]; exact ⟨rfl, rfl, rfl⟩

/-- Changes of the queue's lines in what no account reads. -/
theorem Balances.modLines {s t : State} {g : DemandLine → DemandLine} (lines : t.demand.lines = s.demand.lines.map g)
    (slots : t.slots = s.slots) (slot : ∀ x, (g x).slot = x.slot) (containers : ∀ x, (g x).containers = x.containers)
    (passes : ∀ x, x.passes ≤ 255 → (g x).passes ≤ 255) : Balances s t where
  cfg i := by unfold State.slot; rw [slots]
  keep _ _ h i := by
    have own := (h i).own
    have law := (h i).law
    refine ⟨law.map lines slot fun x hx => ?_, ?_⟩
    · rw [containers]
      exact ⟨(law.containers x hx).1, (law.containers x hx).2, passes x (law.passes x hx)⟩
    · have same : t.slot i = s.slot i := by unfold State.slot; rw [slots]
      rw [same, State.openLine_map lines slot]
      refine ⟨fun hk => ?_, fun hk hb => ?_, fun hk => ?_, fun hb => ?_⟩
      · rw [own.count hk, Option.map_map]
        congr 2
        exact congrArg (Option.map · (s.openLine i)) (funext fun x => (containers x).symm)
      · rw [own.bound hk hb]; rfl
      · rw [own.sequenced hk]; rfl
      · rw [own.blocked hb]; rfl

theorem retestUncovered_balances : Balances s s.retestUncovered := by
  unfold State.retestUncovered
  dsimp only
  refine .trans ?_ (.foldl (fun _ _ => .raise ..) _ _)
  exact .modLines (g := fun x => { x with uncovered := (s.mapSlot x.slot).isNone }) rfl rfl (fun _ => rfl) (fun _ => rfl)
    fun _ h => h

theorem countPasses_balances (is : List SlotId) : Balances s (s.countPasses is) := by
  refine .modLines (g := DemandLine.passedOver is) rfl rfl (fun x => ?_) (fun x => ?_) fun x h => ?_ <;>
    unfold DemandLine.passedOver <;> split
  · rfl
  · rfl
  · rfl
  · rfl
  · exact Nat.min_le_right ..
  · exact h

/-! ## The sensor checker -/

theorem Slot.moved_orders (x : Slot) (result : Option DiscKind) :
    (x.moved result).cfg = x.cfg ∧ (x.moved result).ordered = x.ordered ∧ (x.moved result).blocked = x.blocked := by
  unfold Slot.moved
  split
  · exact ⟨rfl, rfl, rfl⟩
  · split <;> exact ⟨rfl, rfl, rfl⟩

theorem actPolicy_balances : Balances s (s.actPolicy i) := by
  unfold State.actPolicy
  split
  · exact .refl s
  · exact (Balances.modSlot s i ⟨rfl, rfl, rfl⟩).trans (evaluate_balances _ i)
  · exact .modSlot s i ⟨rfl, rfl, rfl⟩

theorem reachFour_balances (k : DiscKind) : Balances s (s.reachFour i k) := by
  unfold State.reachFour
  dsimp only
  have declared : Balances s (s.modSlot i fun x => { x with discrepant := some k }) := .modSlot s i ⟨rfl, rfl, rfl⟩
  split
  · exact (declared.trans (.raise _ _)).trans (actPolicy_balances _ i)
  · exact declared.trans (actPolicy_balances _ i)

theorem checkSlot_balances (states : Vector SensorState 32) (w : SnapshotWork) (i : SlotId) :
    Balances w.st (checkSlot states w i).st := by
  cases hn : (w.st.slot i).cfg.sensor with
  | none =>
    have e : checkSlot states w i = w := by unfold checkSlot; dsimp only; rw [hn]
    rw [e]; exact .refl _
  | some n =>
    have moved (result : Option DiscKind) : Balances w.st (w.st.modSlot i fun x => x.moved result) :=
      .modSlot _ i (Slot.moved_orders ..)
    obtain ⟨-, e⟩ | ⟨k, -, -, e⟩ | ⟨k, -, -, -, e⟩ := checkSlot_cases states w hn <;> rw [e] <;> dsimp only
    · exact moved _
    · exact moved _
    · exact (moved _).trans (reachFour_balances _ i k)

theorem snapshot_balances (bank : Nat) (states : Vector SensorState 32) :
    Balances s ((s.slotsWhere (Slot.checkedBy bank)).foldl (checkSlot states) ⟨s, 0, 0⟩).st := by
  have pass : ∀ (is : List SlotId) (w : SnapshotWork), Balances w.st (is.foldl (checkSlot states) w).st := by
    intro is
    induction is with
    | nil => exact fun w => .refl w.st
    | cons i is ih => exact fun w => (checkSlot_balances states w i).trans (ih _)
  exact pass _ ⟨s, 0, 0⟩

/-! ## Demand requests -/

variable {s i}

theorem topupMerged_balances {g : Nat} (room : g ≤ (s.slot i).cfg.mc - (s.slot i).ordered) (low : g ≠ 0)
    (line : (s.openLine i).isSome = true) : Balances s ((s.mergeOpen i g .topup).raiseOrdered i g) := by
  obtain ⟨x, hx⟩ := Option.isSome_iff_exists.mp line
  exact .ofOrders ((mergeOpen_moves i s g _).trans (raiseOrdered_moves i _ g)) (s.merged_onlyLine i g _) fun _ plan h =>
    h.merged hx (by omega) plan.1.mc_high _

theorem topupCreated_balances {g : Nat} (kanban : (s.slot i).cfg.kind = .kanban)
    (room : g ≤ (s.slot i).cfg.mc - (s.slot i).ordered) (low : g ≠ 0) (line : s.openLine i = none)
    (few : s.demand.lines.length < 112) : Balances s ((s.createOpen i g .topup).raiseOrdered i g) :=
  .ofOrders ((createOpen_moves i s g _).trans (raiseOrdered_moves i _ g)) (s.created_onlyLine i g _) fun _ plan h =>
    h.created line kanban (by omega) (by omega) (by omega) plan.1.mc_high _

theorem cancelDemand_balances {x : DemandLine} (line : s.openLine i = some x) :
    Balances s ((s.removeOpen i).lowerOrdered i x.containers) :=
  .ofOrders ((removeOpen_moves i s).trans (lowerOrdered_moves i _ _))
    ((s.removeOpen_only i).trans (State.lowerOrdered_onlyLine _ i _)) fun _ _ h => h.removed line

/-! ## Lines handed back -/

theorem returnBins_balanced {n : Nat} {out out' : SlotId → Nat} (h : s.Balanced out) (low : 1 ≤ n) (carried : n ≤ out i)
    (plan : (s.slot i).Planned) (cls : DemandClass) (own : out' i = out i - n) (outs : ∀ j, j ≠ i → out' j = out j) :
    (s.returnBins i n cls).Balanced out' :=
  h.one (returnBins_moves i s n cls).others (s.returnBins_onlyLine i n cls) (own ▸ (h i).returnBins low carried plan cls) outs

/-- A line's containers go back from what is carried to the account (R122). -/
theorem returnLine_balanced {out out' : SlotId → Nat} (h : s.Balanced out) (x : ManifestLine) {n : Nat}
    (plan : ∀ i, (s.slot i).Planned) (cls : DemandClass)
    (outs : ∀ j, out j = out' j + if x.binOf j then n else 0) : (s.returnLine x n cls).Balanced out' := by
  unfold State.returnLine
  split
  next c hl =>
    have binOf (j : SlotId) : x.binOf j = (x.slot == j) := by unfold ManifestLine.binOf; rw [hl]
    simp only [binOf] at outs
    split
    next h0 =>
      subst h0
      have : out' = out := funext fun j => by rw [outs j]; simp
      rw [this]; exact h
    next h0 =>
      have own := outs x.slot
      rw [if_pos (by simp)] at own
      refine returnBins_balanced h (by omega) (by omega) (plan _) cls (by omega) fun j hj => ?_
      rw [outs j, if_neg (by simpa using Ne.symm hj)]; rfl
  next hl =>
    have : out' = out := funext fun j => by rw [outs j]; simp [ManifestLine.binOf, hl]
    rw [this]
    exact (rollback_balances s x.slot).keep plan out h

theorem foldl_returnPlanned_balanced (cls : ManifestLine → DemandClass) :
    ∀ (xs : List ManifestLine) (s : State) (out out' : SlotId → Nat), (∀ i, (s.slot i).Planned) → s.Balanced out →
      (∀ j, out j = out' j + owedBy xs j) → (xs.foldl (State.returnPlanned cls) s).Balanced out'
  | [], s, out, out', _, h, outs => by
    have : out' = out := funext fun j => by rw [outs j]; rfl
    rw [this]; exact h
  | x :: xs, s, out, out', plan, h, outs => by
    have first : Work s (State.returnPlanned cls s x) := returnLine_work ..
    refine foldl_returnPlanned_balanced cls xs _ (fun j => out' j + owedBy xs j) out'
      (fun i => by unfold Slot.Planned; rw [first.cfg]; exact plan i) ?_ fun _ => rfl
    refine returnLine_balanced h x plan (cls x) fun j => ?_
    rw [outs j, owedBy_cons, ManifestLine.owes]
    omega

end Sys2Proof.Machine
end

section
/-!
PROOFS that every step keeps the demand queue lawful and every slot's orders accounted for (O10): builds, applies, and the effects
on the manifests.
-/

namespace Sys2Proof.Machine

open Sys2Proof

/-! ## A build -/

/-- Containers taken from a slot's line are carried (R50). -/
theorem State.Account.takeOpen {s : State} {i : SlotId} {out k : Nat} (h : s.Account i out) {x : DemandLine}
    (line : s.openLine i = some x) (few : k ≤ x.containers) : (s.takeOpen i k).Account i (out + k) := by
  have slot : (s.takeOpen i k).slot i = s.slot i := by unfold State.takeOpen; split <;> rfl
  have own := h.own
  rw [line] at own
  obtain ⟨kanban, count, bound, blocked⟩ := own.open
  refine ⟨s.takeOpen_law i k h.law, ?_⟩
  rw [slot, State.takeOpen_openLine, if_pos rfl, line]
  show (s.slot i).Account (x.less k) (out + k)
  unfold DemandLine.less
  split
  · exact .bare fun _ => by omega
  · exact .kanban kanban (by show (s.slot i).ordered = x.containers - k + (out + k); omega) bound blocked

/-- Considering a slot for a rack moves no account (R105, R107). -/
theorem considerRack_balanced (r : RouteId) (w : BuildWork) (i : SlotId) {out : SlotId → Nat}
    (h : w.st.Balanced fun j => out j + owedBy w.lines j) :
    (considerRack r w i).st.Balanced fun j => out j + owedBy (considerRack r w i).lines j := by
  obtain e | ⟨stop, k, -, -, -, -, -, e⟩ := considerRack_cases r w i <;> rw [e]
  · exact h
  · have lines (j : SlotId) : owedBy (w.lines ++ [w.st.newLine i stop (.rack k.first k.last k.positions) 1]) j = owedBy w.lines j := by
      rw [owedBy_append, owedBy_cons]
      simp [ManifestLine.owes, ManifestLine.binOf, State.newLine, owedBy_nil]
    intro j
    show (w.st.coverThrough i k.last).Account j (out j + owedBy (w.lines ++ [_]) j)
    rw [lines]
    refine (h j).congr rfl ?_ ?_ ?_ <;> unfold State.coverThrough <;> by_cases e : j = i
    all_goals first | (subst e; rw [State.slot_modSlot_self]) | rw [State.slot_modSlot_ne _ _ e]

/-- Considering a candidate that still has its line carries what is taken of it (R108, R110). -/
theorem considerBin_balanced (w : BuildWork) (d : DemandLine) {out : SlotId → Nat}
    (h : w.st.Balanced fun j => out j + owedBy w.lines j) (line : w.st.openLine d.slot = some d) :
    (considerBin w d).st.Balanced fun j => out j + owedBy (considerBin w d).lines j := by
  obtain e | ⟨route, stop, k, -, hk, -, -, e⟩ := considerBin_cases w d <;> rw [e]
  · exact h
  · have lines (j : SlotId) : owedBy (w.lines ++ [w.st.newLine d.slot stop (.bin d.cls) k]) j =
        owedBy w.lines j + if j = d.slot then k else 0 := by
      rw [owedBy_append, owedBy_cons]
      by_cases hj : j = d.slot
      · simp [ManifestLine.owes, ManifestLine.binOf, ManifestLine.undelivered, State.newLine, owedBy_nil, hj]
      · simp [ManifestLine.owes, ManifestLine.binOf, State.newLine, owedBy_nil, hj, Ne.symm hj]
    show (w.st.takeOpen d.slot k).Balanced fun j => out j + owedBy (w.lines ++ [_]) j
    refine h.one (i := d.slot) (takeOpen_moves d.slot w.st k).others (w.st.takeOpen_only d.slot k) ?_ fun j hj => ?_
    · rw [lines, if_pos rfl, ← Nat.add_assoc]
      exact (h d.slot).takeOpen line (hk ▸ Nat.min_le_left ..)
    · rw [lines, if_neg hj, Nat.add_zero]

theorem considerBin_onlyLine (w : BuildWork) (d : DemandLine) : OnlyLine w.st (considerBin w d).st d.slot := by
  obtain e | ⟨route, stop, k, -, -, -, -, e⟩ := considerBin_cases w d <;> rw [e]
  · exact .refl _ _
  · exact w.st.takeOpen_only d.slot k

/-- Candidates of distinct slots, each the slot's line, are served one after another (R109, R110). -/
theorem foldl_considerBin_balanced {out : SlotId → Nat} : ∀ (ds : List DemandLine) (w : BuildWork), (ds.map (·.slot)).Nodup →
    (∀ d ∈ ds, w.st.openLine d.slot = some d) → (w.st.Balanced fun j => out j + owedBy w.lines j) →
      (ds.foldl considerBin w).st.Balanced fun j => out j + owedBy (ds.foldl considerBin w).lines j
  | [], _, _, _, h => h
  | d :: ds, w, nodup, lines, h => by
    obtain ⟨hd, hds⟩ := List.nodup_cons.mp nodup
    refine foldl_considerBin_balanced ds _ hds (fun e he => ?_) (considerBin_balanced w d h (lines d List.mem_cons_self))
    have other : e.slot ≠ d.slot := fun same => hd (List.mem_map.mpr ⟨e, he, same⟩)
    rw [considerBin_onlyLine w d e.slot other]
    exact lines e (List.mem_cons_of_mem _ he)

/-- The candidates of a build are lines of the queue, one of each slot (R108). -/
theorem State.candidates_perm (s : State) (r : RouteId) : (s.candidates r).Perm (s.demand.lines.filter (s.candidate r)) :=
  List.perm_insertionSort _ _

theorem State.candidates_nodup {s : State} (law : s.demand.Law) (r : RouteId) : ((s.candidates r).map (·.slot)).Nodup :=
  ((s.candidates_perm r).map _).nodup_iff.mpr (law.oneEach.sublist (List.filter_sublist.map _))

theorem State.candidates_openLine {s : State} (law : s.demand.Law) {r : RouteId} {d : DemandLine} (hd : d ∈ s.candidates r) :
    s.openLine d.slot = some d :=
  State.openLine_of_mem law (List.mem_of_mem_filter ((s.candidates_perm r).mem_iff.mp hd))

/-- The work of a build after its racks (R105 to R107). -/
def State.racksPlaced (s : State) (r : RouteId) : BuildWork :=
  (s.slotsWhere Slot.rackable).foldl (considerRack r) ⟨s, (s.route r).cfg.caps, []⟩

/-- The work of a build after its bins (R108 to R110). -/
def State.binsPlaced (s : State) (r : RouteId) : BuildWork :=
  ((s.racksPlaced r).st.candidates r).foldl considerBin (s.racksPlaced r)

theorem State.selectLoad_eq (s : State) (r : RouteId) : s.selectLoad r = { s.binsPlaced r with
    st := (s.binsPlaced r).st.countPasses (((s.racksPlaced r).st.candidates r).map (·.slot)) } := rfl

theorem State.racksPlaced_work (s : State) (r : RouteId) : Work s (s.racksPlaced r).st :=
  Work.foldl_build (considerRack_work r) (s.slotsWhere Slot.rackable) ⟨s, (s.route r).cfg.caps, []⟩

theorem State.binsPlaced_work (s : State) (r : RouteId) : Work s (s.binsPlaced r).st :=
  (s.racksPlaced_work r).trans (Work.foldl_build considerBin_work _ _)

/-- What a build selects keeps every account, its lines carried (R104 to R110). -/
theorem State.selectLoad_balanced {s : State} {out : SlotId → Nat} (plan : ∀ i, (s.slot i).Planned) (h : s.Balanced out)
    (r : RouteId) : (s.selectLoad r).st.Balanced fun j => out j + owedBy (s.selectLoad r).lines j := by
  have racks : (s.racksPlaced r).st.Balanced fun j => out j + owedBy (s.racksPlaced r).lines j :=
    List.foldlRecOn (s.slotsWhere Slot.rackable) (considerRack r) (b := ⟨s, (s.route r).cfg.caps, []⟩)
      (motive := fun w => w.st.Balanced fun j => out j + owedBy w.lines j) h fun w hw i _ => considerRack_balanced r w i hw
  have law := (racks 0).law
  have bins : (s.binsPlaced r).st.Balanced fun j => out j + owedBy (s.binsPlaced r).lines j :=
    foldl_considerBin_balanced _ _ (State.candidates_nodup law r) (fun d hd => State.candidates_openLine law hd) racks
  rw [State.selectLoad_eq]
  exact (countPasses_balances _ _).keep (fun i => by unfold Slot.Planned; rw [(s.binsPlaced_work r).cfg]; exact plan i) _ bins

/-! ## The points of a route -/

theorem Retains.planned {s t : State} (h : Retains s t) (plan : s.PlanLaw) (i : SlotId) : (t.slot i).Planned :=
  (h.plan plan).planned i

theorem Balances.even {s t : State} (b : Balances s t) (plan : s.PlanLaw) (even : s.Even) (out : ∀ i, t.binsOut i = s.binsOut i) :
    t.Even := fun i => by
  rw [out i]
  exact b.keep plan.planned _ even i

/-- Operations that move no manifest line keep the accounts even. -/
theorem Balances.evenRoutes {s t : State} (b : Balances s t) (plan : s.PlanLaw) (even : s.Even) (routes : t.routes = s.routes) :
    t.Even := b.even plan even (State.binsOut_routes routes)

/-- A change of one route that leaves its manifests' lines. -/
theorem State.Even.modRoute {s : State} (h : s.Even) (r : RouteId) {f : Route → Route}
    (same : ∀ x k, ((f x).buffers.get k).live = (x.buffers.get k).live ∧ ((f x).buffers.get k).lines = (x.buffers.get k).lines) :
    (s.modRoute r f).Even := fun i => by
  have out : (s.modRoute r f).binsOut i = s.binsOut i := State.binsOut_congr (fun q k => by
    unfold State.buffer
    by_cases hq : q = r
    · subst hq; rw [State.route_modRoute_self]; exact same _ k
    · rw [State.route_modRoute_ne _ _ hq]; exact ⟨rfl, rfl⟩) i
  rw [out]
  exact (h i).congr rfl rfl rfl rfl

/-- A change of one buffer that leaves its manifest's lines. -/
theorem State.Even.modBuffer {s : State} (h : s.Even) (r : RouteId) (k : Half) {f : Buffer → Buffer}
    (same : (f (s.buffer r k)).live = (s.buffer r k).live ∧ (f (s.buffer r k)).lines = (s.buffer r k).lines) :
    (s.modBuffer r k f).Even := fun i => by
  have out : (s.modBuffer r k f).binsOut i = s.binsOut i := State.binsOut_congr (fun q j => by
    by_cases hq : q = r
    · subst hq
      rcases k.eq_or_other j with rfl | rfl
      · rw [State.buffer_modBuffer_self]; exact same
      · rw [State.buffer_modBuffer_ne _ _ _ (Half.other_ne k)]; exact ⟨rfl, rfl⟩
    · rw [State.buffer_modBuffer_route_ne _ _ _ _ hq]; exact ⟨rfl, rfl⟩) i
  rw [out]
  exact (h i).congr rfl rfl rfl rfl

theorem State.Even.raise {s : State} (h : s.Even) (e : Event) : (s.raise e).Even := fun i => by
  have out : (s.raise e).binsOut i = s.binsOut i := State.binsOut_routes rfl i
  rw [out]
  exact (h i).congr rfl rfl rfl rfl

theorem goLate_even {s : State} (h : s.Even) (r : RouteId) (b : Buffer) : (s.goLate r b).Even := by
  unfold State.goLate
  split
  · exact h
  · refine .raise ?_ _
    exact h.modRoute r fun _ _ => ⟨rfl, rfl⟩

theorem goOverdue_even {s : State} (h : s.Even) (r : RouteId) (k : Half) : (s.goOverdue r k).Even := by
  have told : (s.modBuffer r k fun b => { b with overdue := true }).Even := h.modBuffer r k ⟨rfl, rfl⟩
  refine .raise ?_ _
  exact told.modRoute r fun _ _ => ⟨rfl, rfl⟩

theorem judgeDeparture_even {s : State} (h : s.Even) (r : RouteId) (k : Half) : (State.judgeDeparture r s k).Even := by
  unfold State.judgeDeparture
  dsimp only
  have seen : (s.modBuffer r k fun b => { b with seen := min (b.seen + 1) 2 }).Even := h.modBuffer r k ⟨rfl, rfl⟩
  split
  · split
    · exact goOverdue_even seen r k
    · exact seen
  · split
    · exact goLate_even seen r _
    · exact seen

theorem settled_even {s : State} (h : s.Even) (r : RouteId) : (s.modRoute r fun x => { x with due := none }).Even :=
  h.modRoute r fun _ _ => ⟨rfl, rfl⟩

theorem departurePoint_even {s : State} (h : s.Even) (r : RouteId) : (s.departurePoint r).Even :=
  settled_even (List.foldlRecOn _ (State.judgeDeparture r) h fun _ ht k _ => judgeDeparture_even ht r k) r

theorem Route.wrapped_buffers (x : Route) : x.wrapped.buffers = x.buffers := by
  unfold Route.wrapped
  cases hn : x.next <;> rfl

theorem wrapPoint_even {s : State} (h : s.Even) (r : RouteId) : (s.wrapPoint r).Even :=
  h.modRoute r fun x k => by rw [Route.wrapped_buffers]; exact ⟨rfl, rfl⟩

theorem skippedPoint_even {s : State} (h : s.Even) (r : RouteId) : (s.skippedPoint r).Even :=
  h.modRoute r fun _ _ => ⟨rfl, rfl⟩

/-- One buffer's change changes what the pool carries by as much. -/
theorem State.binsOut_replace {s t : State} {r : RouteId} {k : Half} (other : t.buffer r k.other = s.buffer r k.other)
    (routes : ∀ q, q ≠ r → t.route q = s.route q) (i : SlotId) :
    t.binsOut i + (s.buffer r k).binsFor i = s.binsOut i + (t.buffer r k).binsFor i := by
  rw [State.binsOut_eq, State.binsOut_eq]
  exact State.poolSum_replace (·.binsFor i) (by rw [other]) fun q hq j => by unfold State.buffer; rw [routes q hq]

theorem Buffer.binsFor_live {b : Buffer} (h : b.live = true) (i : SlotId) : b.binsFor i = owedBy b.lines i := if_pos h

theorem Buffer.binsFor_free {b : Buffer} (h : b.live = false) (i : SlotId) : b.binsFor i = 0 := if_neg (by simp [h])

/-- A build carries what it takes (R50, R111). -/
theorem buildInto_even {s : State} (plan : s.PlanLaw) (even : s.Even) {r : RouteId} {k : Half}
    (free : (s.buffer r k).live = false) : (s.buildInto r k).Even := by
  have selected := State.selectLoad_balanced plan.planned even r
  have route := (selectLoad_work s r).route
  unfold State.buildInto
  dsimp only
  generalize s.selectLoad r = w at *
  refine State.Even.raise (fun i => ?_) _
  have out : (w.st.modRoute r fun x => x.filled k (s.offered r w.lines)).binsOut i = s.binsOut i + owedBy w.lines i := by
    have replaced := State.binsOut_replace (s := s) (t := w.st.modRoute r fun x => x.filled k (s.offered r w.lines)) (r := r)
      (k := k) (by unfold State.buffer; rw [State.route_modRoute_self, Route.filled_other, route])
      (fun q hq => by rw [State.route_modRoute_ne _ _ hq, route]) i
    have new : (w.st.modRoute r fun x => x.filled k (s.offered r w.lines)).buffer r k = s.offered r w.lines := by
      unfold State.buffer; rw [State.route_modRoute_self, Route.filled_buffer]
    rw [new, Buffer.binsFor_free free, Buffer.binsFor_live (by rfl)] at replaced
    show _ = _
    rw [show (s.offered r w.lines).lines = manifestOrder w.lines from rfl, owedBy_perm (manifestOrder_perm _)] at replaced
    omega
  rw [out]
  exact (selected i).congr rfl rfl rfl rfl

theorem build_even {s : State} (plan : s.PlanLaw) (even : s.Even) (r : RouteId) : (s.build r).Even := by
  unfold State.build
  dsimp only
  split
  · exact even.modRoute r fun _ _ => ⟨rfl, rfl⟩
  · split
    next k hk => exact buildInto_even plan even (Route.freeHalf_some.mp hk).1
    · refine .raise ?_ _
      exact even.modRoute r fun _ _ => ⟨rfl, rfl⟩

theorem buildPoint_even {s : State} (plan : s.PlanLaw) (even : s.Even) (r : RouteId) : (s.buildPoint r).Even := by
  have work := retestUncovered_work s
  have retested : s.retestUncovered.Even := (retestUncovered_balances s).evenRoutes plan even work.routes
  exact settled_even (build_even ((Retains.ofWork work).plan plan) retested r) r

theorem takeDue_even {s : State} (plan : s.PlanLaw) (even : s.Even) (r : RouteId) : (s.takeDue r).Even := by
  unfold State.takeDue
  split
  · exact even
  · exact wrapPoint_even even r
  · exact buildPoint_even plan even r
  · exact departurePoint_even even r
  · exact skippedPoint_even even r

theorem settleRoutes_even {s : State} (plan : s.PlanLaw) (even : s.Even) : s.settleRoutes.Even := by
  refine (List.foldlRecOn routeIds State.settleRoute (motive := fun t : State => t.PlanLaw ∧ t.Even) ⟨plan, even⟩
    fun t ⟨ht, he⟩ r _ => ?_).2
  have taken := (takeDue_retains t r).plan ht
  exact ⟨(takeDue_retains _ r).plan taken, takeDue_even taken (takeDue_even ht he r) r⟩

theorem Route.count_buffers (x : Route) : x.count.buffers = x.buffers := by
  obtain ⟨-, e⟩ | ⟨-, -, e⟩ | ⟨-, -, e⟩ := x.count_cases <;> rw [e]

/-- A change of the routes that leaves every manifest's lines. -/
theorem State.Even.ofBuffers {s t : State} (h : s.Even) (lines : t.demand.lines = s.demand.lines) (slots : t.slots = s.slots)
    (buffers : ∀ r, (t.route r).buffers = (s.route r).buffers) : t.Even := fun i => by
  have slot : t.slot i = s.slot i := by unfold State.slot; rw [slots]
  rw [State.binsOut_congr (s := s) fun r k => by unfold State.buffer; rw [buffers]; exact ⟨rfl, rfl⟩]
  exact (h i).congr lines (by rw [slot]) (by rw [slot]) (by rw [slot])

theorem counted_even {s : State} (h : s.Even) : s.tickClocks.countRoutes.Even :=
  h.ofBuffers rfl rfl fun r => by
    rw [State.countRoutes_route]
    split
    · exact Route.count_buffers _
    · rfl

/-! ## Manifests -/

theorem owedBy_markReturned (sel : ManifestLine → Bool) (xs : List ManifestLine) (i : SlotId) :
    owedBy (xs.map (markReturned sel)) i + owedBy (xs.filter (handedBack sel)) i = owedBy xs i := by
  induction xs with
  | nil => rfl
  | cons x xs ih =>
    rw [List.map_cons, List.filter_cons, owedBy_cons, owedBy_cons]
    by_cases hx : handedBack sel x = true
    · have returned : (markReturned sel x).owes i = 0 := by
        simp [markReturned, hx, ManifestLine.owes, ManifestLine.undelivered]
      rw [if_pos hx, owedBy_cons, returned]
      omega
    · rw [if_neg hx, show markReturned sel x = x from if_neg hx]
      omega

/-- Handing lines back moves its buffer's lines alone, of the routes (R121). -/
theorem State.handBack_route (s : State) (r : RouteId) (h : Half) (sel : ManifestLine → Bool) (cls : ManifestLine → DemandClass)
    (q : RouteId) : (s.handBack r h sel cls).route q =
      (s.modBuffer r h fun b => { b with lines := b.lines.map (markReturned sel) }).route q := by
  rw [State.handBack_rest]; rfl

/-- Lines handed back are carried no more (R122). -/
theorem handBack_even {s : State} (plan : s.PlanLaw) (even : s.Even) {r : RouteId} {h : Half} (live : (s.buffer r h).live = true)
    (sel : ManifestLine → Bool) (cls : ManifestLine → DemandClass) : (s.handBack r h sel cls).Even := by
  have buffer := s.handBack_buffer r h sel cls
  have outs (j : SlotId) : s.binsOut j = (s.handBack r h sel cls).binsOut j + owedBy (s.backLines r h sel) j := by
    have replaced := State.binsOut_replace (s := s) (t := s.handBack r h sel cls) (r := r) (k := h)
      (by unfold State.buffer; rw [State.handBack_route]; exact State.buffer_modBuffer_ne s r _ h.other_ne)
      (fun q hq => by rw [State.handBack_route]; exact State.route_modRoute_ne s _ hq) j
    rw [Buffer.binsFor_live live, Buffer.binsFor_live (by rw [buffer]; exact live), buffer] at replaced
    have := owedBy_markReturned sel (s.buffer r h).lines j
    unfold State.backLines
    dsimp only at replaced
    omega
  have returned := foldl_returnPlanned_balanced cls _ s _ _ plan.planned even outs
  exact fun i => (returned i).congr rfl rfl rfl rfl

/-- A buffer that carries nothing is freed without a change of the accounts (R136). -/
theorem freed_even {s : State} (even : s.Even) {r : RouteId} {h : Half} (done : ∀ x ∈ (s.buffer r h).lines, x.undelivered = 0) :
    (s.modRoute r fun x => x.freed h).Even := fun i => by
  have replaced := State.binsOut_replace (s := s) (t := s.modRoute r fun x => x.freed h) (r := r) (k := h)
    (by unfold State.buffer; rw [State.route_modRoute_self, Route.freed_other])
    (fun q hq => State.route_modRoute_ne s _ hq) i
  have before : (s.buffer r h).binsFor i = 0 := by
    unfold Buffer.binsFor
    rw [owedBy_eq_zero done, ite_self]
  have after : ((s.modRoute r fun x => x.freed h).buffer r h).binsFor i = 0 := by
    refine Buffer.binsFor_free ?_ i
    unfold State.buffer
    rw [State.route_modRoute_self, Route.freed_buffer]
    rfl
  rw [before, after] at replaced
  rw [show (s.modRoute r fun x => x.freed h).binsOut i = s.binsOut i by omega]
  exact (even i).congr rfl rfl rfl rfl

theorem tellReturned_even {s : State} (plan : s.PlanLaw) (even : s.Even) (r : RouteId) (lap : Lap) (cause : ReturnCause) (n : Nat) :
    (s.tellReturned r lap cause n).Even :=
  (tellReturned_balances ..).evenRoutes plan even (tellReturned_work ..).routes

/-- A manifest withdrawn or ended hands everything back before its buffer is freed (R127, R135). -/
theorem ended_even {s : State} (plan : s.PlanLaw) (even : s.Even) {r : RouteId} {h : Half} (live : (s.buffer r h).live = true)
    (cls : ManifestLine → DemandClass) (lap : Lap) (cause : ReturnCause) (n : Nat) :
    (((s.handBack r h (fun _ => true) cls).tellReturned r lap cause n).modRoute r fun x => x.freed h).Even := by
  have back := handBack_even plan even live (fun _ => true) cls
  refine freed_even (tellReturned_even ((handBack_retains ..).plan plan) back _ _ _ _) fun x hx => ?_
  have told : (((s.handBack r h (fun _ => true) cls).tellReturned r lap cause n).buffer r h) =
      (s.handBack r h (fun _ => true) cls).buffer r h := by
    unfold State.buffer; rw [(tellReturned_work ..).route]
  rw [told, State.handBack_buffer] at hx
  obtain ⟨y, -, rfl⟩ := List.mem_map.mp hx
  unfold markReturned ManifestLine.undelivered
  split
  · rfl
  next hy =>
    rw [if_neg]
    intro planned
    exact hy (by simp [handedBack, planned])

/-- A short pick takes its containers off the line and returns them (R125). -/
theorem shortPick_even {s : State} (plan : s.PlanLaw) (even : s.Even) {r : RouteId} {h : Half} {n picked : Nat} {x : ManifestLine}
    (live : (s.buffer r h).live = true) (line : (s.buffer r h).lines[n]? = some x) (fewer : picked < x.held)
    (untouched : x.delivered = 0) (planned : x.state = .planned) :
    ((s.modBuffer r h fun b => b.shortPicked n x picked).returnLine x (x.held - picked) .urgent).Even := by
  have after : (s.modBuffer r h fun b => b.shortPicked n x picked).buffer r h = (s.buffer r h).shortPicked n x picked :=
    State.buffer_modBuffer_self ..
  have outs (j : SlotId) : s.binsOut j = (s.modBuffer r h fun b => b.shortPicked n x picked).binsOut j +
      if x.binOf j then x.held - picked else 0 := by
    have replaced := State.binsOut_replace (s := s) (t := s.modBuffer r h fun b => b.shortPicked n x picked) (r := r) (k := h)
      (State.buffer_modBuffer_ne s r (h := h) (k := h.other) _ h.other_ne) (fun q hq => State.route_modRoute_ne s _ hq) j
    have set := owedBy_set line (x.shortPicked picked) j
    have was : x.owes j = if x.binOf j then x.held else 0 := by
      simp [ManifestLine.owes, ManifestLine.undelivered, planned, untouched]
    have is_ : (x.shortPicked picked).owes j = if x.binOf j then picked else 0 := by
      show (if x.binOf j then _ else 0) = _
      by_cases h0 : picked = 0 <;> simp [ManifestLine.undelivered, ManifestLine.shortPicked, h0, planned, untouched]
    rw [after, Buffer.binsFor_live live, Buffer.binsFor_live (b := (s.buffer r h).shortPicked n x picked) live] at replaced
    rw [show ((s.buffer r h).shortPicked n x picked).lines = (s.buffer r h).lines.set n (x.shortPicked picked) from rfl] at replaced
    rw [was, is_] at set
    split at set <;> simp_all only [if_true, Bool.false_eq_true, if_false] <;> omega
  have picked_ : (s.modBuffer r h fun b => b.shortPicked n x picked).Balanced s.binsOut := fun i => (even i).congr rfl rfl rfl rfl
  have back := returnLine_balanced picked_ x plan.planned .urgent outs
  exact fun i => by
    rw [State.binsOut_routes (returnLine_work ..).routes]
    exact back i

/-- A drop delivers one carried container (R133). -/
theorem dropHit_even {s : State} (plan : s.PlanLaw) (even : s.Even) {r : RouteId} {h : Half} {n : Nat} {y : ManifestLine}
    (live : (s.buffer r h).live = true) (line : (s.buffer r h).lines[n]? = some y) (planned : y.state = .planned)
    (open_ : y.delivered < y.held) :
    ((s.modBuffer r h fun b => { b with lines := b.lines.set n y.dropped }).deliverLine y.dropped).Even := by
  have outs (j : SlotId) : s.binsOut j = (s.modBuffer r h fun b => { b with lines := b.lines.set n y.dropped }).binsOut j +
      if y.binOf j then 1 else 0 := by
    have replaced := State.binsOut_replace (s := s) (t := s.modBuffer r h fun b => { b with lines := b.lines.set n y.dropped })
      (r := r) (k := h) (State.buffer_modBuffer_ne s r (h := h) (k := h.other) _ h.other_ne)
      (fun q hq => State.route_modRoute_ne s _ hq) j
    have set := owedBy_set line y.dropped j
    have was : y.owes j = if y.binOf j then y.held - y.delivered else 0 := by
      simp [ManifestLine.owes, ManifestLine.undelivered, planned]
    have left : y.dropped.undelivered = y.held - y.delivered - 1 := by
      by_cases h0 : y.delivered + 1 = y.held <;> simp [ManifestLine.undelivered, ManifestLine.dropped, h0, planned] <;> omega
    have is_ : y.dropped.owes j = if y.binOf j then y.held - y.delivered - 1 else 0 := by
      rw [← left]; rfl
    rw [State.buffer_modBuffer_self, Buffer.binsFor_live live,
      Buffer.binsFor_live (b := { s.buffer r h with lines := (s.buffer r h).lines.set n y.dropped }) live] at replaced
    dsimp only at replaced
    rw [was, is_] at set
    split at set <;> simp_all only [if_true, Bool.false_eq_true, if_false] <;> omega
  have dropped : (s.modBuffer r h fun b => { b with lines := b.lines.set n y.dropped }).Balanced s.binsOut :=
    fun i => (even i).congr rfl rfl rfl rfl
  generalize hu : (s.modBuffer r h fun b => { b with lines := b.lines.set n y.dropped }) = u at *
  have slot (i : SlotId) : u.slot i = s.slot i := by rw [← hu]; rfl
  suffices (u.deliverLine y.dropped).Balanced u.binsOut from fun i => by
    rw [State.binsOut_routes (deliverLine_work ..).routes]; exact this i
  unfold State.deliverLine
  split
  next c hl =>
    have binOf (j : SlotId) : y.binOf j = (y.slot == j) := by
      have : y.load = .bin c := hl
      unfold ManifestLine.binOf; rw [this]
    simp only [binOf] at outs
    have own := outs y.slot
    rw [if_pos (by simp)] at own
    refine dropped.one (i := y.slot) (u.deliverBin_only _) (u.deliverBin_onlyLine _) ?_ fun j hj => ?_
    · exact (own ▸ dropped y.slot).deliverBin (by rw [slot]; exact plan.planned _)
    · rw [outs j, if_neg (by simpa using Ne.symm hj)]; rfl
  next a b m hl =>
    have same : u.binsOut = s.binsOut := funext fun j => by
      have : y.load = .rack a b m := hl
      have := outs j
      simp_all [ManifestLine.binOf]
    rw [same]
    exact (Balances.modSlot u y.slot ⟨rfl, rfl, rfl⟩).keep (fun i => by rw [slot]; exact plan.planned i) _ dropped

/-! ## The apply -/

/-- The adjustments of a slot under way: its account but for MC, whose old value still bounds it (R161). -/
structure State.Cancelling (t : State) (i : SlotId) (cap out : Nat) : Prop where
  law : t.demand.Law
  count : (t.slot i).ordered = t.openContainers i + out
  bound : cap < (t.slot i).ordered → t.openLine i = none
  blocked : (t.slot i).blocked = true → t.openLine i = none

theorem State.Cancelling.cancelOpen {t : State} {i : SlotId} {cap out : Nat} (h : t.Cancelling i cap out) (n : Nat) :
    (t.cancelOpen i n).Cancelling i cap out := by
  have line := t.cancelOpen_openLine i n h.law
  have count := h.count
  refine ⟨t.cancelOpen_law i n h.law, ?_, fun hb => ?_, fun hb => ?_⟩
  · rw [State.cancelOpen_record]
    cases hl : t.openLine i with
    | none =>
      rw [State.openContainers_none hl] at count
      rw [hl] at line
      rw [State.openContainers_none hl, State.openContainers_none line]
      show _ - _ = _
      omega
    | some x =>
      rw [State.openContainers_eq hl] at count ⊢
      rw [hl] at line
      have line : (t.cancelOpen i n).openLine i = x.less n := line
      unfold DemandLine.less at line
      show _ - _ = _
      split at line
      · rw [State.openContainers_none line]; omega
      · rw [State.openContainers_eq line]; dsimp only; omega
  · rw [State.cancelOpen_record] at hb
    rw [line, h.bound (lt_of_lt_of_le hb (Nat.sub_le ..))]
    rfl
  · rw [State.cancelOpen_record] at hb
    rw [line, h.blocked hb]
    rfl

theorem State.Cancelling.cancelIf {t : State} {i : SlotId} {cap out : Nat} (h : t.Cancelling i cap out) (p : Prop) [Decidable p]
    (n : Nat) : (if p then t.cancelOpen i n else t).Cancelling i cap out := by
  split
  · exact h.cancelOpen n
  · exact h

/-- The adjustments of a slot that stays KANBAN end within the new MC, or without a line (R161). -/
theorem State.adjustKanban_account {u : State} {i : SlotId} {old new : SlotConfig} {out : Nat} (kanban : new.kind = .kanban)
    (h : u.Cancelling i old.mc out) (cfg : (u.slot i).cfg = new) : (u.adjustKanban i old new).Account i out := by
  unfold State.adjustKanban
  lift_lets
  intro s1 s2 s3
  have h1 : s1.Cancelling i old.mc out := by
    have slot : s1.slot i = { u.slot i with oh := min (u.slot i).oh new.fullMp } := State.slot_modSlot_self ..
    exact ⟨h.law, by rw [slot]; exact h.count, by rw [slot]; exact h.bound, by rw [slot]; exact h.blocked⟩
  have h2 : s2.Cancelling i old.mc out := h1.cancelIf _ _
  have h3 : s3.Cancelling i old.mc out := h2.cancelIf _ _
  have within : new.mc < (s3.slot i).ordered → s3.openLine i = none := by
    intro above
    by_cases lowered : new.mc < old.mc ∧ new.mc < (s2.slot i).ordered
    · have e : s3 = s2.cancelOpen i ((s2.slot i).ordered - new.mc) := if_pos lowered
      rw [e] at above ⊢
      rw [State.cancelOpen_record] at above
      rw [s2.cancelOpen_openLine i _ h2.law]
      cases hl : s2.openLine i with
      | none => rfl
      | some x =>
        rw [State.openContainers_eq hl] at above
        have above : new.mc < (s2.slot i).ordered - min ((s2.slot i).ordered - new.mc) x.containers := above
        show x.less _ = none
        exact if_pos (by omega)
    · have e : s3 = s2 := if_neg lowered
      rw [e] at above ⊢
      exact h2.bound (by omega)
  have cfg3 : (s3.slot i).cfg = new := by
    have record : SameButOrders { u.slot i with oh := min (u.slot i).oh new.fullMp } (s1.slot i) := by simp [s1, SameButOrders]
    rw [(cancelOpen_if_slot s2 i (cancelOpen_if_slot s1 i record _ _) _ _).cfg]
    exact cfg
  have done : s3.Account i out := ⟨h3.law, fun _ => h3.count, fun _ hb => within (by rw [cfg3] at hb; exact hb),
    fun hk => absurd (by rw [cfg3] at hk; exact kanban.symm.trans hk) (by decide), h3.blocked⟩
  split
  · exact done
  · exact done.congr rfl (by rw [State.slot_modSlot_self]) (by rw [State.slot_modSlot_self]) (by rw [State.slot_modSlot_self])

/-- An adjustment keeps its slot's account, where what is carried is what the live manifests carry (R161, R162). -/
theorem State.Account.adjustSlot {s : State} {i : SlotId} {out : Nat} (h : s.Account i out) (carried : s.binsOut i = out) :
    (s.adjustSlot i).Account i out := by
  unfold State.adjustSlot
  dsimp only
  generalize hu : (s.modSlot i fun x => { x with cfg := s.stagedConfig i }).modImage
    (fun m => { m with slots := m.slots.set i (s.stagedConfig i) }) = u
  have slot : u.slot i = { s.slot i with cfg := s.stagedConfig i } := by rw [← hu]; simp
  have line : u.openLine i = s.openLine i := by rw [← hu]; rfl
  have law : u.demand.Law := by rw [← hu]; exact h.law
  have out_ : u.binsOut i = out := by rw [← carried, ← hu]; exact State.binsOut_routes rfl i
  split
  next hk hk' =>
    refine State.adjustKanban_account hk' ⟨law, ?_, ?_, ?_⟩ (by rw [slot])
    · rw [slot]
      unfold State.openContainers
      rw [line]
      exact h.own.count hk
    · rw [slot, line]; exact h.own.bound hk
    · rw [slot, line]; exact h.own.blocked
  next hk hk' =>
    refine ⟨u.cancelOpen_law i _ law, ?_⟩
    have none : (u.cancelOpen i (u.openContainers i)).openLine i = none := by
      rw [u.cancelOpen_openLine i _ law]
      cases hl : u.openLine i with
      | none => rfl
      | some x =>
        rw [State.openContainers_eq hl]
        exact if_pos (Nat.le_refl _)
    rw [State.makeSequenced, State.slot_modSlot_self, State.modSlot_openLine, none]
    exact .bare fun hk => absurd (hk'.symm.trans hk) (by decide)
  next hk hk' =>
    refine ⟨law, ?_⟩
    rw [State.makeKanban, State.slot_modSlot_self, State.modSlot_openLine, line, h.own.sequenced hk]
    exact .bare fun _ => out_
  next hk hk' =>
    have bare : u.Account i out := by
      refine ⟨law, ?_⟩
      rw [slot, line, h.own.sequenced hk]
      exact .bare fun hk => absurd (hk'.symm.trans hk) (by decide)
    split
    · exact bare
    · exact bare.congr rfl (by rw [State.slot_modSlot_self]) (by rw [State.slot_modSlot_self]) (by rw [State.slot_modSlot_self])

/-- No other slot's line moved, under a wrapper that hides the states from unification. -/
def State.LineOnly (s t : State) (i : SlotId) : Prop := OnlyLine s t i

theorem State.LineOnly.cancelIf {s t : State} {i : SlotId} (h : s.LineOnly t i) (p : Prop) [Decidable p] (n : Nat) :
    s.LineOnly (if p then t.cancelOpen i n else t) i := by
  split
  · exact OnlyLine.trans h (t.cancelOpen_onlyLine i n)
  · exact h

theorem State.LineOnly.adjustKanban {s t : State} {i : SlotId} (h : s.LineOnly t i) (old new : SlotConfig) :
    s.LineOnly (t.adjustKanban i old new) i := by
  have capped : s.LineOnly (t.modSlot i fun x => { x with oh := min x.oh new.fullMp }) i := h
  unfold State.adjustKanban
  dsimp only
  split
  · exact (capped.cancelIf _ _).cancelIf _ _
  · exact (capped.cancelIf _ _).cancelIf _ _

theorem State.adjustSlot_onlyLine (s : State) (i : SlotId) : s.LineOnly (s.adjustSlot i) i := by
  have written : s.LineOnly ((s.modSlot i fun x => { x with cfg := s.stagedConfig i }).modImage
      fun m => { m with slots := m.slots.set i (s.stagedConfig i) }) i := OnlyLine.refl s i
  unfold State.adjustSlot
  dsimp only
  split
  · exact written.adjustKanban _ _
  · exact OnlyLine.trans written (State.cancelOpen_onlyLine _ i _)
  · exact written
  · split <;> exact written

/-- An apply keeps the accounts even (R56, R159 to R162). -/
theorem applyImage_even {s : State} (plan : s.PlanLaw) (even : s.Even) (line : Option Line) (mode : ApplyMode) (seq : SeqNo) :
    (s.applyImage line mode seq).Even := by
  have tables : s.applyGlobals.applyUsage.applyWindows.applyRoutes.Even := by
    refine even.ofBuffers ?_ ?_ fun r => ?_
    · rw [State.applyRoutes_rest]; rfl
    · rw [State.applyRoutes_rest]; rfl
    · rw [State.applyRoutes_route]; exact Route.applied_buffers ..
  have tablesPlan : s.applyGlobals.applyUsage.applyWindows.applyRoutes.PlanLaw :=
    (((applyGlobals_retains s).trans (applyTables_retains _)).trans (applyRoutes_retains _)).plan plan
  unfold State.applyImage
  generalize s.applyGlobals.applyUsage.applyWindows.applyRoutes = t at *
  have adjusted : (s.changedSlots.foldl State.adjustSlot t).Even ∧ (s.changedSlots.foldl State.adjustSlot t).PlanLaw :=
    List.foldlRecOn s.changedSlots State.adjustSlot (motive := fun u : State => u.Even ∧ u.PlanLaw) ⟨tables, tablesPlan⟩
      fun u ⟨hu, hp⟩ i _ => by
        refine ⟨?_, (adjustSlot_retains u i).plan hp⟩
        have out : (u.adjustSlot i).binsOut = u.binsOut :=
          funext (State.binsOut_routes (by rw [(adjustSlot_moves u i).rest]))
        unfold State.Even
        rw [out]
        exact hu.one (adjustSlot_moves u i).others (u.adjustSlot_onlyLine i) ((hu i).adjustSlot rfl) fun _ _ => rfl
  dsimp only
  generalize s.changedSlots.foldl State.adjustSlot t = u at *
  refine .raise ?_ _
  split
  · exact adjusted.1
  · exact (Balances.foldl evaluate_balances _ u).evenRoutes adjusted.2 adjusted.1 (Work.foldl evaluate_work _ u).routes

/-! ## Every step -/

/-- An advance's draws and its starvation test move no account. -/
theorem takeAdvance_even {s : State} (plan : s.PlanLaw) (even : s.Even) (l : Line) (seq : SeqNo) (v : Variant) (mark : Bool) :
    (s.takeAdvance l seq v mark).Even := by
  have applied (t : State) (m : Bool) (hp : t.PlanLaw) (he : t.Even) : (t.applyAtMark l m seq).PlanLaw ∧ (t.applyAtMark l m seq).Even := by
    unfold State.applyAtMark
    split
    · have disarmed (u : State) (a : ApplyState) (h : u.Even) : ({ u with applyState := a } : State).Even :=
        h.ofBuffers rfl rfl fun _ => rfl
      obtain ⟨tables, timing⟩ := (applyImage_retains t (some l) .atMark seq).plan hp
      exact ⟨⟨⟨tables.1, tables.2, tables.3, tables.4, tables.5, tables.6, tables.7, tables.8, tables.9, tables.10, tables.11,
        tables.12, tables.13, tables.14⟩, timing⟩, disarmed _ _ (applyImage_even hp he _ _ _)⟩
    · exact ⟨hp, he⟩
  have settled : (s.settleList l seq (settle (s.seq l).units seq)).Even :=
    (Balances.ofSlots (by rw [State.settleList_rest]) (by rw [State.settleList_rest])).evenRoutes plan even
      (by rw [State.settleList_rest])
  unfold State.takeAdvance
  dsimp only
  obtain ⟨hp, he⟩ := applied _ (mark || (settle (s.seq l).units seq).marked) ((settleList_retains ..).plan plan) settled
  have drawn := (drawLine_balances _ l v seq).evenRoutes hp he (drawLine_work ..).routes
  exact (starveLine_balances _ l v _ seq).evenRoutes ((Retains.ofWork (drawLine_work ..)).plan hp) drawn (starveLine_work ..).routes

theorem runReset_even (s : State) : s.runReset.Even := fun i => by
  have out : s.runReset.binsOut i = 0 := by
    rw [State.binsOut_eq]
    refine List.sum_eq_zero fun n hn => ?_
    obtain ⟨r, -, rfl⟩ := List.mem_map.mp hn
    dsimp only
    rw [State.runReset_buffer, State.runReset_buffer, Buffer.binsFor_free (b := (s.buffer r .lower).cleared) rfl,
      Buffer.binsFor_free (b := (s.buffer r .upper).cleared) rfl, Nat.add_zero]
  rw [out]
  refine ⟨⟨Nat.zero_le _, .nil, fun _ h => (nomatch h), fun _ h => (nomatch h)⟩, ?_⟩
  show (s.runReset.slot i).Account none 0
  rw [State.runReset_slot]
  exact .bare fun _ => rfl

theorem effect_even {s u : State} (law : s.Lawful) (h : Effect s u) : u.Even := by
  have plan : s.PlanLaw := ⟨law.tables, law.timing⟩
  have even : s.Even := s.even_iff.mpr ⟨law.demand, law.ordered⟩
  have worked {t : State} (w : Work s t) (b : Balances s t) : t.Even := b.evenRoutes plan even w.routes
  have quiet {t : State} (lines : t.demand.lines = s.demand.lines) (slots : t.slots = s.slots) (routes : t.routes = s.routes) :
      t.Even := even.ofBuffers lines slots fun r => by unfold State.route; rw [routes]
  have entered (t : State) (m : DeviceMode) (h : t.Even) : (t.enter m).Even := h.ofBuffers rfl rfl fun _ => rfl
  have live {r : RouteId} {k : Half} {st : BufferState} (hst : st ≠ .free) (e : (s.buffer r k).state = st) :
      (s.buffer r k).live = true := by rw [Buffer.live_iff, e]; exact hst
  have step {r : RouteId} {k : Half} {st : BufferState} (hst : st ≠ .free) (from_ : (s.buffer r k).state ≠ .free) :
      (s.modBuffer r k fun b => { b with state := st }).Even :=
    even.modBuffer r k ⟨by rw [(Buffer.live_iff _).mpr from_, (Buffer.live_iff _).mpr hst], rfl⟩
  have announced (l : Line) (x : AnnouncedUnit) {t : State} (h : t.Even) : (t.modSeq l fun q => q.append x).Even :=
    h.ofBuffers rfl rfl fun _ => rfl
  cases h with
  | nothing => exact even
  | powerOn v =>
    have law := s.poweredOn_lawful v
    exact (State.even_iff _).mpr ⟨law.demand, law.ordered⟩
  | edge | gate | readNotices | setNoticeMode | stageSlot | stageUsage | stageRoute | stageWindow | stageGlobals | arm | divert
  | startAgain => exact quiet rfl rfl rfl
  | announceNext l seq v mark => exact announced l _ even
  | announceFirst l seq v mark =>
    have anchored : Balances s (s.anchor l seq) := .ofRecords rfl fun i => by
      rw [State.anchor_slot]
      split <;> exact ⟨rfl, rfl, rfl⟩
    exact announced l _ (anchored.evenRoutes plan even rfl)
  | decisecond => exact counted_even (settleRoutes_even plan even)
  | wrap r => exact wrapPoint_even even r
  | build r => exact buildPoint_even plan even r
  | departure r => exact departurePoint_even even r
  | skipped r => exact skippedPoint_even even r
  | advance l seq v mark => exact takeAdvance_even plan even l seq v mark
  | snapshot bank states => exact worked (snapshot_work ..) (snapshot_balances ..)
  | depart r k awake idle loaded =>
    obtain ⟨alive, -⟩ := State.manifestIn_some loaded
    refine State.Even.modRoute ?_ r fun _ _ => ⟨rfl, rfl⟩
    exact even.modBuffer r k ⟨by rw [alive]; rfl, rfl⟩
  | arrive r k id n awake train found =>
    obtain ⟨alive, -⟩ := State.manifestIn_some train
    have back := handBack_even plan even alive (leftBehind (s.route r).current (s.route r).pointer n) asUrgent
    exact (tellReturned_even ((handBack_retains ..).plan plan) back _ _ _ _).modRoute r fun _ _ => ⟨rfl, rfl⟩
  | dropMissed r => exact even.modRoute r fun _ _ => ⟨rfl, rfl⟩
  | late r on => exact even.modRoute r fun _ _ => ⟨rfl, rfl⟩
  | hold r on => exact even.modRoute r fun _ _ => ⟨rfl, rfl⟩
  | dropHit r k n y awake train line planned =>
    obtain ⟨alive, -⟩ := State.manifestIn_some train
    exact dropHit_even plan even alive line planned
      (((law.manifest r k).lines y (List.mem_of_getElem? line)).open_ planned)
  | lapEnd r k awake train => exact ended_even plan even (State.manifestIn_some train).1 _ _ _ _
  | cancelManifest r k alive waiting => exact ended_even plan even ((Buffer.live_iff _).mpr alive) _ _ _ _
  | beginPick r k awake offered => exact step (by decide) (by rw [offered]; decide)
  | loadConfirm r k awake waiting =>
    exact step (by decide) (by rcases waiting with e | e <;> rw [e] <;> decide)
  | shortPick r k n x picked awake waiting line fewer =>
    have before : (s.buffer r k).state ≠ .onRoute ∧ (s.buffer r k).live = true := by
      rcases waiting with e | e <;> exact ⟨by rw [e]; decide, live (by decide) e⟩
    obtain ⟨untouched, planned | ⟨-, none⟩⟩ := (law.manifest r k).waiting before.1 x (List.mem_of_getElem? line)
    · have picked_ := shortPick_even plan even before.2 line fewer untouched planned
      refine tellReturned_even ?_ picked_ _ _ _ _
      exact ((Retains.modBuffer ..).trans (.ofWork (returnLine_work ..))).plan plan
    · omega
  | apply => exact applyImage_even plan even _ _ _
  | topupMerged i g awake kanban room some_ line =>
    have merged : Work s (s.mergeOpen i g .topup) := modOpen_work s i _
    exact worked (merged.trans (raiseOrdered_work g (by rw [merged.cfg]; exact kanban))) (topupMerged_balances room some_ line)
  | topupCreated i g awake kanban room some_ line few =>
    have created : Work s (s.createOpen i g .topup) := createOpen_work s i g _
    exact worked (created.trans (raiseOrdered_work g (by rw [created.cfg]; exact kanban)))
      (topupCreated_balances kanban room some_ line few)
  | topupRefused i g => exact worked (refuseLine_work ..) (refuseLine_balances ..)
  | cancelDemand i x line =>
    exact worked ((removeOpen_work s i).trans (lowerOrdered_work ..)) (cancelDemand_balances line)
  | clear i awake agreeing => exact worked (clearSlot_work agreeing) (clearSlot_balances ..)
  | startCold | runReset => exact entered _ _ (runReset_even s)
  | stop => exact entered _ _ (settleRoutes_even plan even)

end Sys2Proof.Machine

open Sys2Proof Sys2Proof.Machine

/-- Settles O10: each effect keeps every slot's account even with its OPEN line and the live manifests. -/
theorem demandStaysAccountedFor : Obligations.DemandStaysAccountedFor := by
  intro s t law taken
  exact t.even_iff.mp (step_keeps (fun _ _ _ h => h.ofBuffers rfl rfl fun _ => rfl) effect_even law
    (s.even_iff.mpr ⟨law.demand, law.ordered⟩) taken)
end

section
/-!
PROOFS that every step keeps one train to a route and each manifest in bounds, and raises no load of a manifest that stays live (O11).
-/

namespace Sys2Proof.Machine

open Sys2Proof

/-- A route's train and its two manifests are lawful. -/
structure Route.LapLaw (x : Route) : Prop where
  train : x.TrainLaw
  manifest : ∀ h, (x.buffers.get h).ManifestLaw

/-- From x to y a route keeps its laps lawful, every live manifest stays live, and no load is raised. -/
structure Route.Runs (x y : Route) : Prop where
  law : x.LapLaw → y.LapLaw
  live : ∀ h, (x.buffers.get h).live = true →
    (y.buffers.get h).live = true ∧ ∀ z, (y.buffers.get h).load.get z ≤ (x.buffers.get h).load.get z

/-- From x to y a route keeps its laps lawful, and no load of a manifest live before and after is raised. -/
structure Route.Laps (x y : Route) : Prop where
  law : x.LapLaw → y.LapLaw
  load : ∀ h, (x.buffers.get h).live = true → (y.buffers.get h).live = true →
    ∀ z, (y.buffers.get h).load.get z ≤ (x.buffers.get h).load.get z

/-! ## One route -/

namespace Route

variable {x y : Route}

theorem Runs.refl (x : Route) : x.Runs x := ⟨id, fun _ h => ⟨h, fun _ => Nat.le_refl _⟩⟩

theorem Runs.trans {z : Route} (h : x.Runs y) (k : y.Runs z) : x.Runs z :=
  ⟨k.law ∘ h.law, fun j hj => by
    obtain ⟨hy, ly⟩ := h.live j hj
    obtain ⟨hz, lz⟩ := k.live j hy
    exact ⟨hz, fun c => (lz c).trans (ly c)⟩⟩

theorem Runs.laps (h : x.Runs y) : x.Laps y := ⟨h.law, fun j hj _ => (h.live j hj).2⟩

/-- The fourth law, read at one half and the other. -/
theorem TrainLaw.ofHalf (h : Half)
    (one : ¬((y.buffers.get h).state = .onRoute ∧ (y.buffers.get h.other).state = .onRoute))
    (rest : (y.buffers.get h).state ≠ .onRoute → (y.buffers.get h.other).state ≠ .onRoute → y.pointer = 0 ∧ y.current = none)
    (pointer : y.pointer = (y.current.map (· + 1)).getD 0)
    (onLoop : ∀ h, (y.buffers.get h).state = .onRoute →
      ∃ l, (y.buffers.get h).stops = some l ∧ 1 ≤ l.length ∧ l.length ≤ 16 ∧ y.pointer ≤ l.length)
    (notLeft : ∀ h, (y.buffers.get h).live → (y.buffers.get h).state ≠ .onRoute → (y.buffers.get h).stops = none) :
    y.TrainLaw := by
  cases h with
  | lower => exact ⟨one, rest, pointer, onLoop, notLeft⟩
  | upper => exact ⟨fun e => one e.symm, fun hl hu => rest hu hl, pointer, onLoop, notLeft⟩

theorem TrainLaw.one (law : x.TrainLaw) (h : Half) :
    ¬((x.buffers.get h).state = .onRoute ∧ (x.buffers.get h.other).state = .onRoute) := by
  cases h with
  | lower => exact law.oneTrain
  | upper => exact fun e => law.oneTrain e.symm

theorem TrainLaw.rest (law : x.TrainLaw) (h : Half) (hs : (x.buffers.get h).state ≠ .onRoute)
    (ho : (x.buffers.get h.other).state ≠ .onRoute) : x.pointer = 0 ∧ x.current = none := by
  cases h with
  | lower => exact law.atRest hs ho
  | upper => exact law.atRest ho hs

/-- Where states, departure stop lists, pointer and current stop stay, the fourth law stays. -/
theorem TrainLaw.congr (law : x.TrainLaw) (state : ∀ h, (y.buffers.get h).state = (x.buffers.get h).state)
    (stops : ∀ h, (y.buffers.get h).stops = (x.buffers.get h).stops) (pointer : y.pointer = x.pointer)
    (current : y.current = x.current) : y.TrainLaw := by
  refine .ofHalf .lower ?_ ?_ ?_ (fun h => ?_) fun h => ?_
  · rw [state, state]; exact law.oneTrain
  · rw [state, state, pointer, current]; exact law.atRest
  · rw [pointer, current]; exact law.pointer
  · rw [state, stops, pointer]; exact law.onLoop h
  · unfold Buffer.live; rw [state, stops]; exact law.notLeft h

/-- A change of a route beside its manifests. -/
theorem Runs.ofBuffers (buffers : y.buffers = x.buffers) (pointer : y.pointer = x.pointer) (current : y.current = x.current) :
    x.Runs y :=
  ⟨fun h => ⟨h.train.congr (by rw [buffers]; exact fun _ => rfl) (by rw [buffers]; exact fun _ => rfl) pointer current,
    by rw [buffers]; exact h.manifest⟩, fun k hk => by rw [buffers]; exact ⟨hk, fun _ => Nat.le_refl _⟩⟩

theorem modified_get (x : Route) (h : Half) (f : Buffer → Buffer) :
    ({ x with buffers := x.buffers.modify h f } : Route).buffers.get h = f (x.buffers.get h) := by simp

theorem modified_other (x : Route) (h : Half) (f : Buffer → Buffer) :
    ({ x with buffers := x.buffers.modify h f } : Route).buffers.get h.other = x.buffers.get h.other := by simp

/-- What holds at a half and at the other holds at both. -/
theorem forall_half {p : Half → Prop} (h : Half) (hs : p h) (ho : p h.other) (k : Half) : p k := by
  rcases h.eq_or_other k with rfl | rfl
  · exact hs
  · exact ho

/-- A change of one buffer that leaves its state and its departure stop list. -/
theorem Runs.modBuffer (x : Route) (h : Half) {f : Buffer → Buffer}
    (state : (f (x.buffers.get h)).state = (x.buffers.get h).state) (stops : (f (x.buffers.get h)).stops = (x.buffers.get h).stops)
    (law : (x.buffers.get h).ManifestLaw → (f (x.buffers.get h)).ManifestLaw)
    (load : ∀ z, (f (x.buffers.get h)).load.get z ≤ (x.buffers.get h).load.get z) :
    x.Runs { x with buffers := x.buffers.modify h f } where
  law hx := {
    train := hx.train.congr (forall_half h (by rw [modified_get, state]) (by rw [modified_other]))
      (forall_half h (by rw [modified_get, stops]) (by rw [modified_other])) rfl rfl
    manifest := forall_half h (by rw [modified_get]; exact law (hx.manifest h)) (by rw [modified_other]; exact hx.manifest _) }
  live := forall_half h
    (fun hl => by rw [modified_get]; exact ⟨by unfold Buffer.live at *; rwa [state], load⟩)
    (fun hl => by rw [modified_other]; exact ⟨hl, fun _ => Nat.le_refl _⟩)

end Route

/-! ## Lines -/

/-- A replaced line that reads the same under f leaves the list the same under f. -/
theorem map_set_same {α β : Type} {xs : List α} {n : Nat} {x y : α} {f : α → β} (h : xs[n]? = some x) (same : f y = f x) :
    (xs.set n y).map f = xs.map f := by
  rw [List.map_set, same]
  refine List.ext_getElem? fun k => ?_
  rw [List.getElem?_set]
  split
  next e =>
    subst e
    rw [List.length_map, List.getElem?_map, h, if_pos (List.getElem?_eq_some_iff.mp h).1]
    rfl
  · rfl

theorem pairwise_stop_congr {xs ys : List ManifestLine} (h : ys.map (·.stop) = xs.map (·.stop))
    (sorted : xs.Pairwise fun x y => x.stop ≤ y.stop) : ys.Pairwise fun x y => x.stop ≤ y.stop := by
  have : (ys.map (·.stop)).Pairwise (· ≤ ·) := h ▸ List.pairwise_map.mpr sorted
  exact List.pairwise_map.mp this

theorem heldOf_cons (z : SizeClass) (x : ManifestLine) (xs : List ManifestLine) :
    heldOf z (x :: xs) = (if x.size = z then x.held else 0) + heldOf z xs := by
  unfold heldOf
  rw [List.filter_cons]
  by_cases h : x.size = z <;> simp [h]

theorem heldOf_set {xs : List ManifestLine} {n : Nat} {x : ManifestLine} (h : xs[n]? = some x) (y : ManifestLine) (z : SizeClass) :
    heldOf z (xs.set n y) + (if x.size = z then x.held else 0) = heldOf z xs + if y.size = z then y.held else 0 := by
  induction xs generalizing n with
  | nil => simp at h
  | cons w ws ih =>
    cases n with
    | zero =>
      rw [List.getElem?_cons_zero] at h
      cases h
      rw [List.set_cons_zero, heldOf_cons, heldOf_cons]
      omega
    | succ n =>
      rw [List.getElem?_cons_succ] at h
      rw [List.set_cons_succ, heldOf_cons, heldOf_cons]
      have := ih h
      omega

theorem heldOf_map {f : ManifestLine → ManifestLine} (size : ∀ x, (f x).size = x.size) (held : ∀ x, (f x).held = x.held)
    (z : SizeClass) (xs : List ManifestLine) : heldOf z (xs.map f) = heldOf z xs := by
  induction xs with
  | nil => rfl
  | cons x xs ih => rw [List.map_cons, heldOf_cons, heldOf_cons, ih, size, held]

theorem carriedLoad_congr {xs ys : List ManifestLine} (h : ∀ z, heldOf z ys = heldOf z xs) : carriedLoad ys = carriedLoad xs := by
  unfold carriedLoad; rw [h, h, h]

theorem PerSize.ext_get {x y : PerSize} (h : ∀ z, x.get z = y.get z) : x = y := by
  have hs := h .s
  have hm := h .m
  have hl := h .l
  cases x; cases y
  simp only [PerSize.get] at hs hm hl
  rw [hs, hm, hl]

/-- Each line of a list whose one line was replaced. -/
theorem forall_mem_set {xs : List ManifestLine} {n : Nat} {y : ManifestLine} {p : ManifestLine → Prop} (h : ∀ x ∈ xs, p x) (hy : p y) :
    ∀ x ∈ xs.set n y, p x := fun x hx => by
  rcases List.mem_or_eq_of_mem_set hx with hx | rfl
  · exact h x hx
  · exact hy

theorem ManifestLine.dropped_law {y : ManifestLine} (law : y.Law) (planned : y.state = .planned) : y.dropped.Law := by
  have room := law.open_ planned
  refine ⟨law.stop, law.planned, law.held, room, fun h => ?_, fun h => ?_, law.rack⟩
  · have : y.delivered + 1 ≠ y.held := fun e => by
      simp [ManifestLine.dropped, e] at h
    show y.delivered + 1 < y.held
    omega
  · by_contra ne
    have ne : ¬ y.delivered + 1 = y.held := ne
    simp [ManifestLine.dropped, ne, planned] at h

theorem ManifestLine.shortPicked_law {x : ManifestLine} (law : x.Law) {picked : Nat} (fewer : picked < x.held)
    (untouched : x.delivered = 0) (planned : x.state = .planned) : (x.shortPicked picked).Law := by
  refine ⟨law.stop, law.planned, fewer.le.trans law.held, ?_, fun h => ?_, fun h => ?_, law.rack⟩
  · show x.delivered ≤ picked
    omega
  · have : picked ≠ 0 := fun e => by simp [ManifestLine.shortPicked, e] at h
    show x.delivered < picked
    omega
  · by_cases e : picked = 0 <;> simp [ManifestLine.shortPicked, e, planned] at h

theorem markReturned_law {x : ManifestLine} (law : x.Law) (sel : ManifestLine → Bool) : (markReturned sel x).Law := by
  unfold markReturned
  split
  · exact ⟨law.stop, law.planned, law.held, law.delivered, fun h => (nomatch h), fun h => (nomatch h), law.rack⟩
  · exact law

theorem markReturned_same (sel : ManifestLine → Bool) (x : ManifestLine) : (markReturned sel x).stop = x.stop ∧
    (markReturned sel x).size = x.size ∧ (markReturned sel x).held = x.held := by
  unfold markReturned
  split <;> exact ⟨rfl, rfl, rfl⟩

/-! ## One manifest -/

/-- A manifest's law where only its times at the departure point change. -/
theorem Buffer.ManifestLaw.judged {b : Buffer} (h : b.ManifestLaw) {n : Nat} (seen : n ≤ 2) (o : Bool) :
    ({ b with seen := n, overdue := o } : Buffer).ManifestLaw :=
  ⟨h.free, h.count, h.lines, h.order, h.load, h.small, h.medium, h.large, seen, h.waiting⟩

/-- On the way, lines handed back leave the manifest lawful (R121, R130). -/
theorem Buffer.ManifestLaw.marked {b : Buffer} (h : b.ManifestLaw) (away : b.state = .onRoute) (sel : ManifestLine → Bool) :
    ({ b with lines := b.lines.map (markReturned sel) } : Buffer).ManifestLaw where
  free e := by rw [show b.state = .free from e] at away; cases away
  count := by rw [List.length_map]; exact h.count
  lines y hy := by
    obtain ⟨x, hx, rfl⟩ := List.mem_map.mp hy
    exact markReturned_law (h.lines x hx) sel
  order := by
    refine pairwise_stop_congr (xs := b.lines) ?_ h.order
    rw [List.map_map]
    exact List.map_congr_left fun x _ => (markReturned_same sel x).1
  load live := by
    rw [carriedLoad_congr (heldOf_map (fun x => (markReturned_same sel x).2.1) (fun x => (markReturned_same sel x).2.2) · b.lines)]
    exact h.load live
  small := h.small
  medium := h.medium
  large := h.large
  seen := h.seen
  waiting ne := absurd away ne

/-- On the way, a drop leaves the manifest lawful (R133). -/
theorem Buffer.ManifestLaw.drop {b : Buffer} (h : b.ManifestLaw) (away : b.state = .onRoute) {n : Nat} {y : ManifestLine}
    (line : b.lines[n]? = some y) (planned : y.state = .planned) :
    ({ b with lines := b.lines.set n y.dropped } : Buffer).ManifestLaw where
  free e := by rw [show b.state = .free from e] at away; cases away
  count := by rw [List.length_set]; exact h.count
  lines := forall_mem_set h.lines (ManifestLine.dropped_law (h.lines y (List.mem_of_getElem? line)) planned)
  order := pairwise_stop_congr (map_set_same line rfl) h.order
  load live := by
    have same (z : SizeClass) : heldOf z (b.lines.set n y.dropped) = heldOf z b.lines :=
      Nat.add_right_cancel (heldOf_set line y.dropped z)
    rw [carriedLoad_congr same]
    exact h.load live
  small := h.small
  medium := h.medium
  large := h.large
  seen := h.seen
  waiting ne := absurd away ne

theorem Buffer.shortPicked_load (b : Buffer) (n : Nat) (x : ManifestLine) (picked : Nat) (z : SizeClass) :
    (b.shortPicked n x picked).load.get z = b.load.get z - if x.size = z then x.held - picked else 0 := by
  show (b.load.modify x.size _).get z = _
  by_cases h : x.size = z
  · subst h; rw [PerSize.get_modify_self, if_pos rfl]
  · rw [PerSize.get_modify_ne _ _ (Ne.symm h), if_neg h, Nat.sub_zero]

/-- Before departure, a short pick leaves the manifest lawful (R125). -/
theorem Buffer.ManifestLaw.shortPick {b : Buffer} (h : b.ManifestLaw) (waits : b.state ≠ .onRoute) (live : b.live = true) {n picked : Nat}
    {x : ManifestLine} (line : b.lines[n]? = some x) (fewer : picked < x.held) : (b.shortPicked n x picked).ManifestLaw := by
  have mem := List.mem_of_getElem? line
  have planned : x.delivered = 0 ∧ x.state = .planned := by
    obtain ⟨untouched, planned | ⟨-, none⟩⟩ := h.waiting waits x mem
    · exact ⟨untouched, planned⟩
    · omega
  have lower (z : SizeClass) : (b.shortPicked n x picked).load.get z ≤ b.load.get z := by
    rw [Buffer.shortPicked_load]; exact Nat.sub_le ..
  exact {
    free := fun e => absurd e ((Buffer.live_iff b).mp live)
    count := by show (b.lines.set n _).length ≤ 32; rw [List.length_set]; exact h.count
    lines := forall_mem_set h.lines (ManifestLine.shortPicked_law (h.lines x mem) fewer planned.1 planned.2)
    order := pairwise_stop_congr (map_set_same line rfl) h.order
    load := fun _ => PerSize.ext_get fun z => by
      have set : _ = _ + if x.size = z then picked else 0 := heldOf_set line (x.shortPicked picked) z
      have was : b.load.get z = heldOf z b.lines := by rw [h.load live, carriedLoad_get]; rfl
      have is_ : (carriedLoad (b.shortPicked n x picked).lines).get z = heldOf z (b.lines.set n (x.shortPicked picked)) := by
        rw [carriedLoad_get]; rfl
      rw [Buffer.shortPicked_load, is_, was]
      by_cases hz : x.size = z
      · rw [if_pos hz, if_pos hz] at set
        rw [if_pos hz]
        omega
      · rw [if_neg hz, if_neg hz] at set
        rw [if_neg hz]
        omega
    small := fun _ => (lower .s).trans (h.small live)
    medium := fun _ => (lower .m).trans (h.medium live)
    large := fun _ => (lower .l).trans (h.large live)
    seen := h.seen
    waiting := fun _ => forall_mem_set (h.waiting waits) ⟨planned.1, by
      by_cases e : picked = 0 <;> simp [ManifestLine.shortPicked, e, planned.2]⟩ }

/-- A manifest's next state while it stays live and on the same side of departure, or departs (R124, R126, R128). -/
theorem Buffer.ManifestLaw.next {b c : Buffer} (h : b.ManifestLaw) (live : b.live = true) (state : c.state ≠ .free)
    (rest : c = { b with state := c.state, stops := c.stops }) (waits : c.state ≠ .onRoute → b.state ≠ .onRoute) :
    c.ManifestLaw := by
  rw [rest]
  exact ⟨fun e => absurd e state, h.count, h.lines, h.order, fun _ => h.load live, fun _ => h.small live, fun _ => h.medium live,
    fun _ => h.large live, h.seen, fun ne => h.waiting (waits ne)⟩

/-- A buffer with no manifest and no lines. -/
theorem Buffer.ManifestLaw.cleared {b : Buffer} (h : b.ManifestLaw) : ({ b with state := .free, lines := [] } : Buffer).ManifestLaw :=
  ⟨fun _ => rfl, Nat.zero_le _, fun _ h => (nomatch h), .nil, fun h => (nomatch h), fun h => (nomatch h), fun h => (nomatch h),
    fun h => (nomatch h), h.seen, fun _ _ h => (nomatch h)⟩

/-! ## A build -/

/-- Every line of a build in progress is lawful. -/
def BuildWork.LinesLaw (w : BuildWork) : Prop := ∀ x ∈ w.lines, x.Law

/-- A mapping's stop is held within the route's stop list (R66). -/
theorem State.mapSlot_stop {s : State} (tables : s.TablesLaw) {i : SlotId} {r : RouteId} {stop : Nat}
    (h : s.mapSlot i = some (r, stop)) : stop ≤ 15 := by
  unfold State.mapSlot State.mapCode at h
  obtain ⟨w, -, e⟩ := Option.map_eq_some_iff.mp h
  cases e
  have := (tables.routes w.route).stops_high
  exact (Nat.min_le_right ..).trans (by omega)

/-- A new line of 1 to 4 containers is lawful (R107, R110). -/
theorem State.newLine_law {s : State} (tables : s.TablesLaw) {i : SlotId} {r : RouteId} {stop : Nat}
    (h : s.mapSlot i = some (r, stop)) {load : LineLoad} {n : Nat} (low : 1 ≤ n) (high : n ≤ 4)
    (rack : ∀ a b k, load = .rack a b k → n = 1 ∧ 1 ≤ k ∧ k ≤ 12) : (s.newLine i stop load n).Law :=
  ⟨State.mapSlot_stop tables h, ⟨low, high⟩, Nat.le_refl _, Nat.zero_le _, fun _ => low, fun h => (nomatch h), rack⟩

theorem considerRack_lines {w : BuildWork} (tables : w.st.TablesLaw) (h : w.LinesLaw) (r : RouteId) (i : SlotId) :
    (considerRack r w i).LinesLaw := by
  obtain e | ⟨stop, k, hm, -, hk, -, -, e⟩ := considerRack_cases r w i <;> rw [e]
  · exact h
  · intro x hx
    rcases List.mem_append.mp (show x ∈ w.lines ++ [_] from hx) with hx | hx
    · exact h x hx
    · rw [List.mem_singleton.mp hx]
      obtain ⟨m, -, low, high, -⟩ := State.eligibleRack_some hk
      refine State.newLine_law tables hm (Nat.le_refl 1) (by decide) fun a b n e => ?_
      cases e
      exact ⟨rfl, low, high.trans (tables.slots i).rack_high⟩

theorem considerBin_lines {w : BuildWork} (tables : w.st.TablesLaw) (h : w.LinesLaw) {d : DemandLine} (few : d.containers ≤ 4) :
    (considerBin w d).LinesLaw := by
  obtain e | ⟨route, stop, k, hm, hk, h0, -, e⟩ := considerBin_cases w d <;> rw [e]
  · exact h
  · intro x hx
    rcases List.mem_append.mp (show x ∈ w.lines ++ [_] from hx) with hx | hx
    · exact h x hx
    · rw [List.mem_singleton.mp hx]
      exact State.newLine_law tables hm (by omega) (by omega) fun a b n e => (nomatch e)

theorem State.racksPlaced_demand (s : State) (r : RouteId) : (s.racksPlaced r).st.demand = s.demand := by
  refine List.foldlRecOn (s.slotsWhere Slot.rackable) (considerRack r) (b := ⟨s, (s.route r).cfg.caps, []⟩)
    (motive := fun w => w.st.demand = s.demand) rfl fun w hw i _ => ?_
  rw [(considerRack_rest r w i).1]
  exact hw

/-- Every line that a build selects is lawful (R99, R107, R110). -/
theorem State.selectLoad_lines {s : State} (plan : s.PlanLaw) (law : s.demand.Law) (r : RouteId) : (s.selectLoad r).LinesLaw := by
  have racks : (s.racksPlaced r).st.PlanLaw ∧ (s.racksPlaced r).LinesLaw :=
    List.foldlRecOn (s.slotsWhere Slot.rackable) (considerRack r) (b := ⟨s, (s.route r).cfg.caps, []⟩)
      (motive := fun w => w.st.PlanLaw ∧ w.LinesLaw) ⟨plan, fun _ h => nomatch h⟩ fun w ⟨hp, hl⟩ i _ =>
        ⟨(Retains.ofWork (considerRack_work r w i)).plan hp, considerRack_lines hp.tables hl r i⟩
  have bins : (s.binsPlaced r).st.PlanLaw ∧ (s.binsPlaced r).LinesLaw :=
    List.foldlRecOn ((s.racksPlaced r).st.candidates r) considerBin (motive := fun w => w.st.PlanLaw ∧ w.LinesLaw) racks
      fun w ⟨hp, hl⟩ d hd => by
        refine ⟨(Retains.ofWork (considerBin_work w d)).plan hp, considerBin_lines hp.tables hl ?_⟩
        have mem := List.mem_of_mem_filter (((s.racksPlaced r).st.candidates_perm r).mem_iff.mp hd)
        rw [State.racksPlaced_demand] at mem
        exact (law.containers d mem).2
  rw [State.selectLoad_eq]
  generalize s.binsPlaced r = w at bins ⊢
  exact bins.2

theorem manifestOrder_sorted (xs : List ManifestLine) : (manifestOrder xs).Pairwise fun x y => x.stop ≤ y.stop := by
  unfold manifestOrder
  have total : Std.Total fun x y : ManifestLine => x.stop ≤ y.stop := ⟨fun x y => Nat.le_total ..⟩
  have trans : IsTrans ManifestLine fun x y => x.stop ≤ y.stop := ⟨fun _ _ _ => Nat.le_trans⟩
  exact List.pairwise_insertionSort _ xs

/-- The manifest that a build offers is lawful (R98 to R113). -/
theorem State.offered_law {s : State} (plan : s.PlanLaw) (law : s.demand.Law) (r : RouteId) :
    (s.offered r (s.selectLoad r).lines).ManifestLaw := by
  have fits := s.selectLoad_fits r
  have lines := State.selectLoad_lines plan law r
  have cfg := plan.tables.routes r
  have perm := manifestOrder_perm (s.selectLoad r).lines
  have within (z : SizeClass) : (carriedLoad (s.selectLoad r).lines).get z ≤ (s.route r).cfg.caps.get z := by
    have := fits.room z
    omega
  exact {
    free := fun h => nomatch h
    count := by show (manifestOrder _).length ≤ 32; rw [perm.length_eq]; exact fits.count
    lines := fun x hx => lines x (perm.mem_iff.mp hx)
    order := manifestOrder_sorted _
    load := fun _ => PerSize.ext_get fun z => (carriedLoad_perm perm z).symm
    small := fun _ => (within .s).trans cfg.small
    medium := fun _ => (within .m).trans cfg.medium
    large := fun _ => (within .l).trans cfg.large
    seen := Nat.zero_le _
    waiting := fun _ x hx => by
      obtain ⟨-, -, delivered, planned⟩ := fits.whole x (perm.mem_iff.mp hx)
      exact ⟨delivered, .inl planned⟩ }

/-- A FREE buffer filled with a lawful manifest not yet on its way (R97, R104). -/
theorem Route.filled_runs {x : Route} {h : Half} {b : Buffer} (free : (x.buffers.get h).live = false) (law : b.ManifestLaw)
    (state : b.state ≠ .onRoute) (stops : b.stops = none) : x.Runs (x.filled h b) where
  law hx := {
    manifest := forall_half h (by rw [Route.filled_buffer]; exact law) (by rw [Route.filled_other]; exact hx.manifest _)
    train := by
      have idle : (x.buffers.get h).state ≠ .onRoute := fun e => by simp [Buffer.live, e] at free
      refine .ofHalf h ?_ (fun _ ho => ?_) hx.train.pointer (forall_half h ?_ ?_) (forall_half h ?_ ?_)
      · rw [Route.filled_buffer]; exact fun e => state e.1
      · rw [Route.filled_other] at ho; exact hx.train.rest h idle ho
      · rw [Route.filled_buffer]; exact fun e => absurd e state
      · rw [Route.filled_other]; exact hx.train.onLoop _
      · rw [Route.filled_buffer]; exact fun _ _ => stops
      · rw [Route.filled_other]; exact hx.train.notLeft _ }
  live := forall_half h (fun live => by rw [free] at live; cases live)
    (fun live => by rw [Route.filled_other]; exact ⟨live, fun _ => Nat.le_refl _⟩)

/-! ## Whole states -/

/-- From s to t every route runs on. -/
structure State.Runs (s t : State) : Prop where
  route : ∀ r, (s.route r).Runs (t.route r)

namespace State.Runs

variable {s t u : State}

theorem refl (s : State) : s.Runs s := ⟨fun _ => .refl _⟩

theorem trans (h : s.Runs t) (k : t.Runs u) : s.Runs u := ⟨fun r => (h.route r).trans (k.route r)⟩

theorem ofWork (h : Work s t) : s.Runs t := ⟨fun r => by rw [h.route]; exact .refl _⟩

theorem modRoute {r : RouteId} {f : Route → Route} (h : (s.route r).Runs (f (s.route r))) : s.Runs (s.modRoute r f) := ⟨fun k => by
  by_cases hk : k = r
  · subst hk; rw [State.route_modRoute_self]; exact h
  · rw [State.route_modRoute_ne _ _ hk]; exact .refl _⟩

theorem raise (s : State) (e : Event) : s.Runs (s.raise e) := ⟨fun _ => .refl _⟩

/-- A change of routes beside their manifests. -/
theorem flag (s : State) (r : RouteId) {f : Route → Route} (buffers : ∀ x, (f x).buffers = x.buffers)
    (pointer : ∀ x, (f x).pointer = x.pointer) (current : ∀ x, (f x).current = x.current) : s.Runs (s.modRoute r f) :=
  .modRoute (.ofBuffers (buffers _) (pointer _) (current _))

end State.Runs

theorem goLate_runs (s : State) (r : RouteId) (b : Buffer) : s.Runs (s.goLate r b) := by
  unfold State.goLate
  split
  · exact .refl s
  · refine .trans ?_ (.raise _ _)
    exact .flag s r (fun _ => rfl) (fun _ => rfl) fun _ => rfl

theorem judged_runs (s : State) (r : RouteId) (h : Half) {f : Buffer → Buffer}
    (judged : ∀ b, ∃ n o, f b = { b with seen := n, overdue := o } ∧ (b.seen ≤ 2 → n ≤ 2)) : s.Runs (s.modBuffer r h f) := by
  refine .modRoute (.modBuffer _ h ?_ ?_ (fun law => ?_) fun z => ?_) <;>
    obtain ⟨n, o, e, le⟩ := judged ((s.route r).buffers.get h) <;> rw [e]
  exact law.judged (le law.seen) o

theorem goOverdue_runs (s : State) (r : RouteId) (h : Half) : s.Runs (s.goOverdue r h) := by
  refine .trans ?_ (.raise _ _)
  refine .trans (judged_runs s r h fun b => ⟨b.seen, true, rfl, id⟩) ?_
  exact .flag _ r (fun _ => rfl) (fun _ => rfl) fun _ => rfl

theorem judgeDeparture_runs (s : State) (r : RouteId) (h : Half) : s.Runs (State.judgeDeparture r s h) := by
  unfold State.judgeDeparture
  dsimp only
  have seen : s.Runs (s.modBuffer r h fun b => { b with seen := min (b.seen + 1) 2 }) :=
    judged_runs s r h fun b => ⟨min (b.seen + 1) 2, b.overdue, rfl, fun _ => Nat.min_le_right ..⟩
  split
  · split
    · exact seen.trans (goOverdue_runs ..)
    · exact seen
  · split
    · exact seen.trans (goLate_runs ..)
    · exact seen

theorem settled_runs (s : State) (r : RouteId) : s.Runs (s.modRoute r fun x => { x with due := none }) :=
  .flag s r (fun _ => rfl) (fun _ => rfl) fun _ => rfl

theorem departurePoint_runs (s : State) (r : RouteId) : s.Runs (s.departurePoint r) :=
  State.Runs.trans (List.foldlRecOn _ (State.judgeDeparture r) (motive := fun t => s.Runs t) (.refl s)
    fun t ht h _ => ht.trans (judgeDeparture_runs t r h)) (settled_runs _ r)

theorem skippedPoint_runs (s : State) (r : RouteId) : s.Runs (s.skippedPoint r) := .flag s r (fun _ => rfl) (fun _ => rfl) fun _ => rfl

theorem wrapPoint_runs (s : State) (r : RouteId) : s.Runs (s.wrapPoint r) := by
  have train (x : Route) : x.wrapped.pointer = x.pointer ∧ x.wrapped.current = x.current := by
    unfold Route.wrapped
    cases hn : x.next <;> exact ⟨rfl, rfl⟩
  exact .flag s r Route.wrapped_buffers (fun x => (train x).1) fun x => (train x).2

theorem buildInto_runs {s : State} (plan : s.PlanLaw) (law : s.demand.Law) {r : RouteId} {h : Half}
    (free : (s.buffer r h).live = false) : s.Runs (s.buildInto r h) := by
  have offered := State.offered_law plan law r
  have selected : s.Runs (s.selectLoad r).st := .ofWork (selectLoad_work s r)
  have route := (selectLoad_work s r).route r
  unfold State.buildInto
  dsimp only
  refine State.Runs.trans (selected.trans (.modRoute ?_)) (.raise _ _)
  exact Route.filled_runs (by rw [route]; exact free) offered (fun e => nomatch e) rfl

theorem build_runs {s : State} (plan : s.PlanLaw) (law : s.demand.Law) (r : RouteId) : s.Runs (s.build r) := by
  unfold State.build
  dsimp only
  split
  · exact .flag s r (fun _ => rfl) (fun _ => rfl) fun _ => rfl
  · split
    next h hh => exact buildInto_runs plan law (Route.freeHalf_some.mp hh).1
    · refine .trans ?_ (.raise _ _)
      exact .flag s r (fun _ => rfl) (fun _ => rfl) fun _ => rfl

theorem buildPoint_runs {s : State} (plan : s.PlanLaw) (even : s.Even) (r : RouteId) : s.Runs (s.buildPoint r) := by
  have work := retestUncovered_work s
  have retested : s.retestUncovered.Even := (retestUncovered_balances s).evenRoutes plan even work.routes
  exact ((State.Runs.ofWork work).trans (build_runs ((Retains.ofWork work).plan plan) (retested 0).law r)).trans (settled_runs _ r)

theorem takeDue_runs {s : State} (plan : s.PlanLaw) (even : s.Even) (r : RouteId) : s.Runs (s.takeDue r) := by
  unfold State.takeDue
  split
  · exact .refl s
  · exact wrapPoint_runs s r
  · exact buildPoint_runs plan even r
  · exact departurePoint_runs s r
  · exact skippedPoint_runs s r

theorem settleRoutes_runs {s : State} (plan : s.PlanLaw) (even : s.Even) : s.Runs s.settleRoutes := by
  refine (List.foldlRecOn routeIds State.settleRoute (motive := fun t => t.PlanLaw ∧ t.Even ∧ s.Runs t) ⟨plan, even, .refl s⟩
    fun t ⟨ht, he, hr⟩ r _ => ?_).2.2
  have taken := (takeDue_retains t r).plan ht
  have even := takeDue_even ht he r
  exact ⟨(takeDue_retains _ r).plan taken, takeDue_even taken even r,
    hr.trans ((takeDue_runs ht he r).trans (takeDue_runs taken even r))⟩

theorem countRoutes_runs (s : State) : s.Runs s.countRoutes := ⟨fun r => by
  rw [State.countRoutes_route]
  split
  · obtain ⟨-, e⟩ | ⟨-, -, e⟩ | ⟨-, -, e⟩ := (s.route r).count_cases <;> rw [e]
    · exact .refl _
    · exact .ofBuffers rfl rfl rfl
    · exact .ofBuffers rfl rfl rfl
  · exact .refl _⟩

theorem applyImage_runs (s : State) (line : Option Line) (mode : ApplyMode) (seq : SeqNo) : s.Runs (s.applyImage line mode seq) :=
  ⟨fun r => by
    rw [State.applyImage_route]
    obtain ⟨-, e⟩ | ⟨-, -, e⟩ | ⟨-, -, e⟩ := (s.route r).applied_cases s.image.routes[r] <;> rw [e] <;>
      exact .ofBuffers rfl rfl rfl⟩

theorem takeAdvance_runs (s : State) (l : Line) (seq : SeqNo) (v : Variant) (mark : Bool) : s.Runs (s.takeAdvance l seq v mark) := by
  have settled : s.Runs (s.settleList l seq (settle (s.seq l).units seq)) := by rw [State.settleList_rest]; exact ⟨fun _ => .refl _⟩
  have applied (t : State) (m : Bool) : t.Runs (t.applyAtMark l m seq) := by
    unfold State.applyAtMark
    split
    · exact ⟨(applyImage_runs t (some l) .atMark seq).route⟩
    · exact .refl t
  exact ((settled.trans (applied _ _)).trans (.ofWork (drawLine_work ..))).trans (.ofWork (starveLine_work ..))

/-! ## A train's lap -/

namespace Route

/-- An arrival's stop lies in the list (R129). -/
theorem findStop_lt {stops : List Byte} {pointer k : Nat} {id : Byte} (h : findStop stops pointer id = .found k) : k < stops.length := by
  unfold findStop at h
  split at h
  next j hj =>
    cases h
    obtain ⟨lt, -⟩ := List.findIdx?_eq_some_iff_getElem.mp hj
    rw [List.length_drop] at lt
    omega
  · split at h <;> cases h

/-- The two buffers of a route with one changed and its pointer and current stop set. -/
theorem set_get (x : Route) (h : Half) (f : Buffer → Buffer) (p : Nat) (c : Option Nat) :
    ({ x with buffers := x.buffers.modify h f, pointer := p, current := c } : Route).buffers.get h = f (x.buffers.get h) ∧
    ({ x with buffers := x.buffers.modify h f, pointer := p, current := c } : Route).buffers.get h.other = x.buffers.get h.other :=
  ⟨modified_get x h f, modified_other x h f⟩

/-- The oldest LOADED manifest departs, no train being out (R128). -/
theorem depart_laps (x : Route) (h : Half) (idle : ∀ k, (x.buffers.get k).state ≠ .onRoute)
    (loaded : (x.buffers.get h).state = .loaded) (cfg : x.cfg.InRange) :
    x.Laps { x with
      buffers := x.buffers.modify h fun b => { b with state := .onRoute, stops := some x.cfg.stops }
      pointer := 0, current := none } := by
  obtain ⟨own, other⟩ := x.set_get h (fun b => { b with state := .onRoute, stops := some x.cfg.stops }) 0 none
  have live : (x.buffers.get h).live = true := by rw [Buffer.live_iff, loaded]; decide
  refine ⟨fun hx => ⟨.ofHalf h (fun e => ?_) (fun _ _ => ⟨rfl, rfl⟩) rfl (forall_half h (fun _ => ?_) fun e => ?_)
    (forall_half h (fun _ e => ?_) ?_), forall_half h ?_ ?_⟩, forall_half h (fun _ _ z => ?_) fun _ _ z => ?_⟩
  · rw [other] at e; exact idle _ e.2
  · rw [own]; exact ⟨_, rfl, cfg.stops_low, cfg.stops_high, Nat.zero_le _⟩
  · rw [other] at e; exact absurd e (idle _)
  · rw [own] at e; exact absurd rfl e
  · rw [other]; exact hx.train.notLeft _
  · rw [own]; exact (hx.manifest h).next live (fun e => nomatch e) rfl fun _ => idle h
  · rw [other]; exact hx.manifest _
  · rw [own]
  · rw [other]

/-- A train arrives (R130). -/
theorem arrive_laps (x : Route) (h : Half) (away : (x.buffers.get h).state = .onRoute) (sel : ManifestLine → Bool) {k : Nat}
    {id : Byte} (found : findStop ((x.buffers.get h).stops.getD []) x.pointer id = .found k) :
    x.Laps { x with
      buffers := x.buffers.modify h fun b => { b with lines := b.lines.map (markReturned sel) }
      pointer := k + 1, current := some k } := by
  obtain ⟨own, other⟩ := x.set_get h (fun b => { b with lines := b.lines.map (markReturned sel) }) (k + 1) (some k)
  have alone (hx : x.LapLaw) : (x.buffers.get h.other).state ≠ .onRoute := fun e => hx.train.one h ⟨away, e⟩
  refine ⟨fun hx => ⟨.ofHalf h (fun e => ?_) (fun e => ?_) rfl (forall_half h (fun _ => ?_) fun e => ?_)
    (forall_half h (fun _ e => ?_) ?_), forall_half h ?_ ?_⟩, forall_half h (fun _ _ z => ?_) fun _ _ z => ?_⟩
  · rw [other] at e; exact alone hx e.2
  · rw [own] at e; exact absurd away e
  · rw [own]
    obtain ⟨l, hl, low, high, -⟩ := hx.train.onLoop h away
    rw [hl] at found
    exact ⟨l, hl, low, high, findStop_lt found⟩
  · rw [other] at e; exact absurd e (alone hx)
  · rw [own] at e; exact absurd away e
  · rw [other]; exact hx.train.notLeft _
  · rw [own]; exact (hx.manifest h).marked away sel
  · rw [other]; exact hx.manifest _
  · rw [own]
  · rw [other]

/-- A manifest that has handed its lines back is freed (R127, R136). -/
theorem ended_laps (x : Route) (h : Half) (sel : ManifestLine → Bool) :
    x.Laps (({ x with buffers := x.buffers.modify h fun b => { b with lines := b.lines.map (markReturned sel) } } : Route).freed h) := by
  have own := Route.freed_buffer { x with buffers := x.buffers.modify h fun b => { b with lines := b.lines.map (markReturned sel) } } h
  have other := Route.freed_other { x with buffers := x.buffers.modify h fun b => { b with lines := b.lines.map (markReturned sel) } } h
  have rest := Route.freed_rest { x with buffers := x.buffers.modify h fun b => { b with lines := b.lines.map (markReturned sel) } } h
  rw [modified_get] at own rest
  rw [modified_other] at other
  generalize ({ x with buffers := x.buffers.modify h fun b => { b with lines := b.lines.map (markReturned sel) } } : Route).freed h = y at *
  have pointer : y.pointer = if (x.buffers.get h).state = .onRoute then 0 else x.pointer := by rw [rest]
  have current : y.current = if (x.buffers.get h).state = .onRoute then none else x.current := by rw [rest]
  refine ⟨fun hx => ⟨.ofHalf h (fun e => ?_) (fun _ e => ?_) ?_ (forall_half h (fun e => ?_) fun e => ?_)
    (forall_half h (fun live => ?_) ?_), forall_half h ?_ ?_⟩, forall_half h (fun _ live => ?_) fun _ _ z => ?_⟩
  · rw [own] at e; exact nomatch e.1
  · rw [other] at e
    rw [pointer, current]
    split
    · exact ⟨rfl, rfl⟩
    next hs => exact hx.train.rest h hs e
  · rw [pointer, current]
    split
    · rfl
    · exact hx.train.pointer
  · rw [own] at e; cases e
  · rw [other] at e ⊢
    rw [pointer, if_neg fun hs => hx.train.one h ⟨hs, e⟩]
    exact hx.train.onLoop _ e
  · rw [own] at live; cases live
  · rw [other]; exact hx.train.notLeft _
  · rw [own]; exact (hx.manifest h).cleared
  · rw [other]; exact hx.manifest _
  · rw [own] at live; cases live
  · rw [other]

/-- A manifest's state before departure moves on (R124, R126). -/
theorem waits_laps (x : Route) (h : Half) {st : BufferState} (live : (x.buffers.get h).live = true)
    (waits : (x.buffers.get h).state ≠ .onRoute) (away : st ≠ .onRoute) (stays : st ≠ .free) :
    x.Laps { x with buffers := x.buffers.modify h fun b => { b with state := st } } := by
  have own := x.modified_get h fun b => { b with state := st }
  have other := x.modified_other h fun b => { b with state := st }
  refine ⟨fun hx => ⟨.ofHalf h (fun e => ?_) (fun _ e => ?_) hx.train.pointer (forall_half h (fun e => ?_) ?_)
    (forall_half h (fun _ _ => ?_) ?_), forall_half h ?_ ?_⟩, forall_half h (fun _ _ z => ?_) fun _ _ z => ?_⟩
  · rw [own] at e; exact away e.1
  · rw [other] at e; exact hx.train.rest h waits e
  · rw [own] at e; exact absurd e away
  · rw [other]; exact hx.train.onLoop _
  · rw [own]; exact hx.train.notLeft h live waits
  · rw [other]; exact hx.train.notLeft _
  · rw [own]; exact (hx.manifest h).next live stays rfl fun _ => waits
  · rw [other]; exact hx.manifest _
  · rw [own]
  · rw [other]

end Route

/-! ## Every step -/

/-- Every route's laps are lawful, and no load that stays live is above what it was in s. -/
structure State.LapsFrom (s t : State) : Prop where
  law : ∀ r, (t.route r).LapLaw
  load : ∀ r h, (s.buffer r h).live = true → (t.buffer r h).live = true →
    ∀ z, (t.buffer r h).load.get z ≤ (s.buffer r h).load.get z

theorem State.LapsFrom.ofLaps {s t : State} (law : s.Lawful) (h : ∀ r, (s.route r).Laps (t.route r)) : s.LapsFrom t :=
  ⟨fun r => (h r).law ⟨law.train r, law.manifest r⟩, fun r => (h r).load⟩

theorem State.LapsFrom.ofRuns {s t : State} (law : s.Lawful) (h : s.Runs t) : s.LapsFrom t := .ofLaps law fun r => (h.route r).laps

/-- One route's lap moves on. -/
theorem State.LapsFrom.one {s t : State} (law : s.Lawful) {r : RouteId} (own : (s.route r).Laps (t.route r))
    (others : ∀ q, q ≠ r → t.route q = s.route q) : s.LapsFrom t := .ofLaps law fun q => by
  by_cases hq : q = r
  · subst hq; exact own
  · rw [others q hq]; exact (Route.Runs.refl _).laps

/-- No manifest is live after a reset, and the fourth and fifth laws hold. -/
theorem State.LapsFrom.free {s t : State} (law : ∀ r, (t.route r).LapLaw) (free : ∀ r h, (t.buffer r h).live = false) : s.LapsFrom t :=
  ⟨law, fun r h _ live => by rw [free] at live; cases live⟩

theorem runReset_laps {s : State} (law : s.Lawful) (m : DeviceMode) : s.LapsFrom (s.runReset.enter m) := by
  have route (r : RouteId) : (s.runReset.enter m).route r = (s.route r).runReset := State.runReset_route s r
  have buffer (r : RouteId) (h : Half) : (s.route r).runReset.buffers.get h = (s.buffer r h).cleared := Route.runReset_buffer _ h
  refine .free (fun r => ?_) fun r h => ?_
  · rw [route]
    refine ⟨?_, fun h => ?_⟩
    · refine .ofHalf .lower (fun e => ?_) (fun _ _ => ?_) ?_ (fun h e => ?_) fun h live => ?_
      · rw [buffer] at e; exact nomatch e.1
      · rw [Route.runReset_eq]; exact ⟨rfl, rfl⟩
      · rw [Route.runReset_eq]; rfl
      · rw [buffer] at e; cases e
      · rw [buffer] at live; cases live
    · rw [buffer]; exact (law.manifest r h).cleared
  · unfold State.buffer
    rw [route, buffer]
    rfl

theorem effect_laps {s u : State} (law : s.Lawful) (h : Effect s u) : s.LapsFrom u := by
  have plan : s.PlanLaw := ⟨law.tables, law.timing⟩
  have even : s.Even := s.even_iff.mpr ⟨law.demand, law.ordered⟩
  have quiet {t : State} (routes : t.routes = s.routes) : s.LapsFrom t :=
    .ofRuns law ⟨fun r => by unfold State.route; rw [routes]; exact .refl _⟩
  have worked {t : State} (w : Work s t) : s.LapsFrom t := quiet w.routes
  have flag (r : RouteId) {f : Route → Route} (buffers : ∀ x, (f x).buffers = x.buffers) (pointer : ∀ x, (f x).pointer = x.pointer)
      (current : ∀ x, (f x).current = x.current) : s.LapsFrom (s.modRoute r f) := .ofRuns law (.flag s r buffers pointer current)
  have waits (r : RouteId) (k : Half) {st : BufferState} (from_ : (s.buffer r k).state = .offered ∨ (s.buffer r k).state = .picking)
      (away : st ≠ .onRoute) (stays : st ≠ .free) : s.LapsFrom (s.modBuffer r k fun b => { b with state := st }) := by
    refine .one law (r := r) ?_ fun q hq => State.route_modRoute_ne s _ hq
    rw [State.modBuffer, State.route_modRoute_self]
    refine Route.waits_laps _ k ?_ ?_ away stays
    · rw [Buffer.live_iff]; rcases from_ with e | e <;> (unfold State.buffer at e; rw [e]; decide)
    · rcases from_ with e | e <;> (unfold State.buffer at e; rw [e]; decide)
  have ended (r : RouteId) (k : Half) (cls : ManifestLine → DemandClass) (lap : Lap) (cause : ReturnCause) (n : Nat) :
      s.LapsFrom (((s.handBack r k (fun _ => true) cls).tellReturned r lap cause n).modRoute r fun x => x.freed k) := by
    have route (q : RouteId) : ((s.handBack r k (fun _ => true) cls).tellReturned r lap cause n).route q =
        (s.modBuffer r k fun b => { b with lines := b.lines.map (markReturned fun _ => true) }).route q := by
      rw [(tellReturned_work ..).route, State.handBack_route]
    refine .one law (r := r) ?_ fun q hq => ?_
    · rw [State.route_modRoute_self, route, State.modBuffer, State.route_modRoute_self]
      exact Route.ended_laps ..
    · rw [State.route_modRoute_ne _ _ hq, route]
      exact State.route_modRoute_ne s _ hq
  cases h with
  | nothing | edge | gate | readNotices | setNoticeMode | announceFirst | announceNext | stageSlot | stageUsage | stageRoute
  | stageWindow | stageGlobals | arm | divert | startAgain => exact quiet rfl
  | powerOn v =>
    have on := s.poweredOn_lawful v
    exact .free (fun r => ⟨on.train r, on.manifest r⟩) fun r k => by
      have := on.cold.manifests rfl r k
      unfold Buffer.live
      rw [this]
      rfl
  | decisecond =>
    have ticked (t : State) : t.Runs t.tickClocks := ⟨fun _ => .refl _⟩
    exact .ofRuns law (((settleRoutes_runs plan even).trans (ticked _)).trans (countRoutes_runs _))
  | wrap r => exact .ofRuns law (wrapPoint_runs s r)
  | build r => exact .ofRuns law (buildPoint_runs plan even r)
  | departure r => exact .ofRuns law (departurePoint_runs s r)
  | skipped r => exact .ofRuns law (skippedPoint_runs s r)
  | advance l seq v mark => exact .ofRuns law (takeAdvance_runs s l seq v mark)
  | snapshot => exact worked (snapshot_work ..)
  | depart r k awake idle loaded =>
    refine .one law (r := r) ?_ fun q hq => ?_
    · rw [State.route_modRoute_self, State.modBuffer, State.route_modRoute_self]
      exact Route.depart_laps _ k ((State.manifestIn_none (by decide)).mp idle) (State.manifestIn_some loaded).2 (law.tables.routes r)
    · rw [State.route_modRoute_ne _ _ hq]; exact State.route_modRoute_ne s _ hq
  | arrive r k id n awake train found =>
    have route (q : RouteId) (sel : ManifestLine → Bool) (lap : Lap) (cause : ReturnCause) (m : Nat) :
        ((s.handBack r k sel asUrgent).tellReturned r lap cause m).route q =
          (s.modBuffer r k fun b => { b with lines := b.lines.map (markReturned sel) }).route q := by
      rw [(tellReturned_work ..).route, State.handBack_route]
    refine .one law (r := r) ?_ fun q hq => ?_
    · rw [State.route_modRoute_self, route, State.modBuffer, State.route_modRoute_self]
      exact Route.arrive_laps _ k (State.manifestIn_some train).2 _ found
    · rw [State.route_modRoute_ne _ _ hq, route]
      exact State.route_modRoute_ne s _ hq
  | dropMissed r => exact flag r (fun _ => rfl) (fun _ => rfl) fun _ => rfl
  | late r on => exact flag r (fun _ => rfl) (fun _ => rfl) fun _ => rfl
  | hold r on => exact flag r (fun _ => rfl) (fun _ => rfl) fun _ => rfl
  | dropHit r k n y awake train line planned =>
    refine .ofRuns law (.trans (.modRoute (.modBuffer _ k rfl rfl (fun m => ?_) fun _ => Nat.le_refl _)) (.ofWork (deliverLine_work ..)))
    exact m.drop (State.manifestIn_some train).2 line planned
  | lapEnd r k | cancelManifest r k => exact ended r k ..
  | beginPick r k awake offered => exact waits r k (.inl offered) (by decide) (by decide)
  | loadConfirm r k awake waiting => exact waits r k waiting (by decide) (by decide)
  | shortPick r k n x picked awake waiting line fewer =>
    have before : (s.buffer r k).state ≠ .onRoute ∧ (s.buffer r k).live = true := by
      rw [Buffer.live_iff]
      rcases waiting with e | e <;> rw [e] <;> decide
    have picked_ : s.Runs (s.modBuffer r k fun b => b.shortPicked n x picked) :=
      .modRoute (.modBuffer _ k rfl rfl (fun m => m.shortPick before.1 before.2 line fewer) fun z => by
        rw [Buffer.shortPicked_load]; exact Nat.sub_le ..)
    exact .ofRuns law ((picked_.trans (.ofWork (returnLine_work ..))).trans (.ofWork (tellReturned_work ..)))
  | apply => exact .ofRuns law (applyImage_runs ..)
  | topupMerged i g awake kanban =>
    have merged : Work s (s.mergeOpen i g .topup) := modOpen_work s i _
    exact worked (merged.trans (raiseOrdered_work g (by rw [merged.cfg]; exact kanban)))
  | topupCreated i g awake kanban =>
    have created : Work s (s.createOpen i g .topup) := createOpen_work s i g _
    exact worked (created.trans (raiseOrdered_work g (by rw [created.cfg]; exact kanban)))
  | topupRefused i g => exact worked (refuseLine_work ..)
  | cancelDemand i x => exact worked ((removeOpen_work s i).trans (lowerOrdered_work ..))
  | clear i awake agreeing => exact worked (clearSlot_work agreeing)
  | startCold | runReset => exact runReset_laps law _
  | stop =>
    have entered (t : State) (m : DeviceMode) : t.Runs (t.enter m) := ⟨fun _ => .refl _⟩
    exact .ofRuns law ((settleRoutes_runs plan even).trans (entered _ _))

end Sys2Proof.Machine

open Sys2Proof Sys2Proof.Machine

/-- Settles O11: each effect keeps one train to a route and each manifest in bounds, and raises no load that stays live. -/
theorem trainsAndManifestsStayLawful : Obligations.TrainsAndManifestsStayLawful := by
  intro s t law taken
  have laps : s.LapsFrom t := by
    obtain rfl | ⟨q, ⟨u, made, same, -⟩⟩ := step_effect taken
    · exact ⟨fun r => ⟨law.train r, law.manifest r⟩, fun _ _ _ _ _ => Nat.le_refl _⟩
    · rw [same]
      obtain ⟨lawful, load⟩ := effect_laps (law.withPending q) made
      exact ⟨lawful, load⟩
  exact ⟨fun r => (laps.law r).train, fun r => (laps.law r).manifest, fun r h before after =>
    laps.load r h ((Buffer.live_iff _).mpr before) ((Buffer.live_iff _).mpr after)⟩
end

section
/-!
PROOFS that every step keeps one undelivered rack to a slot and the marks in step with it (O12).
-/

namespace Sys2Proof.Machine

open Sys2Proof

/-! ## The racks in the pool -/

/-- A line is an undelivered rack of a slot. -/
def ManifestLine.rackOut (x : ManifestLine) (i : SlotId) : Bool := x.rackOf i && x.state == .planned

/-- The undelivered racks of a slot in a list of lines. -/
def racksIn (xs : List ManifestLine) (i : SlotId) : Multiset ManifestLine := ↑(xs.filter (·.rackOut i))

/-- The undelivered racks of a slot in a buffer's live manifest. -/
def Buffer.racksFor (b : Buffer) (i : SlotId) : Multiset ManifestLine := if b.live then racksIn b.lines i else 0

/-- The undelivered racks of a slot over the pool, in no order. -/
def State.rackPool (s : State) (i : SlotId) : Multiset ManifestLine := s.poolSum (·.racksFor i)

theorem coe_flatMap {α β : Type} (xs : List α) (f : α → List β) :
    ((xs.flatMap f : List β) : Multiset β) = (xs.map fun x => (f x : Multiset β)).sum := by
  induction xs with
  | nil => rfl
  | cons x xs ih => rw [List.flatMap_cons, List.map_cons, List.sum_cons, ← ih, Multiset.coe_add]

theorem State.racksOut_pool (s : State) (i : SlotId) : (s.racksOut i : Multiset ManifestLine) = s.rackPool i := by
  unfold State.racksOut State.rackPool State.poolSum
  rw [coe_flatMap]
  congr 1
  refine List.map_congr_left fun r _ => ?_
  rw [coe_flatMap]
  exact Route.liveHalves_sum ..

/-- No rack is out exactly where the pool holds none (R106). -/
theorem State.hasRackOut_pool (s : State) (i : SlotId) : s.hasRackOut i = false ↔ s.rackPool i = 0 := by
  rw [← State.racksOut_pool, ← Multiset.coe_nil, Multiset.coe_eq_coe, List.perm_nil]
  unfold State.hasRackOut State.racksOut
  simp [List.flatMap_eq_nil_iff, List.filter_eq_nil_iff]

theorem racksIn_nil (i : SlotId) : racksIn [] i = 0 := rfl

theorem racksIn_cons (x : ManifestLine) (xs : List ManifestLine) (i : SlotId) :
    racksIn (x :: xs) i = (if x.rackOut i then {x} else 0) + racksIn xs i := by
  unfold racksIn
  rw [List.filter_cons]
  split
  · rw [Multiset.singleton_add, Multiset.cons_coe]
  · rw [zero_add]

theorem racksIn_append (xs ys : List ManifestLine) (i : SlotId) : racksIn (xs ++ ys) i = racksIn xs i + racksIn ys i := by
  unfold racksIn
  rw [List.filter_append, Multiset.coe_add]

theorem racksIn_perm {xs ys : List ManifestLine} (h : xs.Perm ys) (i : SlotId) : racksIn xs i = racksIn ys i :=
  Multiset.coe_eq_coe.mpr (h.filter _)

theorem racksIn_eq_zero {xs : List ManifestLine} {i : SlotId} (h : ∀ x ∈ xs, x.rackOut i = false) : racksIn xs i = 0 := by
  unfold racksIn
  rw [List.filter_eq_nil_iff.mpr fun x hx => by rw [h x hx]; decide]
  rfl

theorem racksIn_set {xs : List ManifestLine} {n : Nat} {x : ManifestLine} (h : xs[n]? = some x) (y : ManifestLine) (i : SlotId) :
    racksIn (xs.set n y) i + (if x.rackOut i then {x} else 0) = racksIn xs i + if y.rackOut i then {y} else 0 := by
  induction xs generalizing n with
  | nil => simp at h
  | cons z zs ih =>
    cases n with
    | zero =>
      rw [List.getElem?_cons_zero] at h
      cases h
      rw [List.set_cons_zero, racksIn_cons, racksIn_cons]
      abel
    | succ n =>
      rw [List.getElem?_cons_succ] at h
      rw [List.set_cons_succ, racksIn_cons, racksIn_cons, add_assoc, ih h, add_assoc]

/-- Lines handed back are no longer out. -/
theorem racksIn_markReturned (sel : ManifestLine → Bool) (xs : List ManifestLine) (i : SlotId) :
    racksIn (xs.map (markReturned sel)) i + racksIn (xs.filter (handedBack sel)) i = racksIn xs i := by
  induction xs with
  | nil => rfl
  | cons x xs ih =>
    rw [List.map_cons, List.filter_cons, racksIn_cons, racksIn_cons, ← ih]
    by_cases hx : handedBack sel x = true
    · have returned : (markReturned sel x).rackOut i = false := by
        simp [markReturned, hx, ManifestLine.rackOut]
      rw [if_pos hx, racksIn_cons, returned]
      simp only [Bool.false_eq_true, if_false]
      abel
    · rw [if_neg hx, show markReturned sel x = x from if_neg hx]
      abel

theorem State.rackPool_congr {s t : State} (h : ∀ r k, (t.buffer r k).live = (s.buffer r k).live ∧
    (t.buffer r k).lines = (s.buffer r k).lines) (i : SlotId) : t.rackPool i = s.rackPool i :=
  State.poolSum_congr fun r k => by unfold Buffer.racksFor; rw [(h r k).1, (h r k).2]

theorem State.rackPool_routes {s t : State} (h : t.routes = s.routes) (i : SlotId) : t.rackPool i = s.rackPool i :=
  State.rackPool_congr (fun r k => by unfold State.buffer State.route; rw [h]; exact ⟨rfl, rfl⟩) i

theorem State.rackPool_replace {s t : State} {r : RouteId} {k : Half} (other : t.buffer r k.other = s.buffer r k.other)
    (routes : ∀ q, q ≠ r → t.route q = s.route q) (i : SlotId) :
    t.rackPool i + (s.buffer r k).racksFor i = s.rackPool i + (t.buffer r k).racksFor i :=
  State.poolSum_replace (·.racksFor i) (by rw [other]) fun q hq j => by unfold State.buffer; rw [routes q hq]

theorem Buffer.racksFor_live {b : Buffer} (h : b.live = true) (i : SlotId) : b.racksFor i = racksIn b.lines i := if_pos h

theorem Buffer.racksFor_free {b : Buffer} (h : b.live = false) (i : SlotId) : b.racksFor i = 0 := if_neg (by simp [h])

/-! ## One slot -/

/-- A slot has at most one rack out, and its marks are in step with it (R38, R39). -/
structure Slot.Racked (x : Slot) (out : Multiset ManifestLine) : Prop where
  one : out.card ≤ 1
  marks : ∀ m, x.marks = some m → m.covered = m.delivered ∨
    ∃ y ∈ out, ∃ a n, y.load = .rack a m.covered n ∧ seqAfter m.covered m.delivered = true

/-- Equal marks need no rack out. -/
theorem Slot.Racked.level {x : Slot} {out : Multiset ManifestLine} (one : out.card ≤ 1)
    (level : ∀ m, x.marks = some m → m.covered = m.delivered) : x.Racked out := ⟨one, fun m hm => .inl (level m hm)⟩

theorem Slot.Racked.congr {x y : Slot} {out : Multiset ManifestLine} (h : x.Racked out) (marks : y.marks = x.marks) : y.Racked out :=
  ⟨h.one, by rw [marks]; exact h.marks⟩

/-- With no rack out the marks are equal. -/
theorem Slot.Racked.covered {x : Slot} (h : x.Racked 0) {m : Marks} (hm : x.marks = some m) : m.covered = m.delivered := by
  rcases h.marks m hm with e | ⟨y, hy, -⟩
  · exact e
  · exact absurd hy (Multiset.notMem_zero y)

/-- Each slot has at most the racks given for it out, and marks in step with them. -/
structure State.RackedBy (s : State) (out : SlotId → Multiset ManifestLine) : Prop where
  slot : ∀ i, (s.slot i).Racked (out i)

/-- Each slot is in step with the racks of the live manifests. -/
structure State.Racked (s : State) : Prop where
  by_ : s.RackedBy s.rackPool

theorem State.racked_iff (s : State) : s.Racked ↔ s.RackLaw := by
  have card (i : SlotId) : (s.rackPool i).card = (s.racksOut i).length := by rw [← State.racksOut_pool, Multiset.coe_card]
  have mem (i : SlotId) (y : ManifestLine) : y ∈ s.rackPool i ↔ y ∈ s.racksOut i := by rw [← State.racksOut_pool, Multiset.mem_coe]
  refine ⟨fun h => ⟨fun i => by rw [← card]; exact (h.by_.slot i).one, fun i m hm => ?_⟩,
    fun h => ⟨⟨fun i => ⟨by rw [card]; exact h.one i, fun m hm => ?_⟩⟩⟩⟩
  · have := (h.by_.slot i).marks m hm
    simp only [mem] at this
    exact this
  · simp only [mem]
    exact h.marks i m hm

/-! ## What leaves the marks -/

/-- From s to t every slot's marks stay. -/
structure KeepsMarks (s t : State) : Prop where
  marks : ∀ i, (t.slot i).marks = (s.slot i).marks

namespace KeepsMarks

variable {s t u : State}

theorem refl (s : State) : KeepsMarks s s := ⟨fun _ => rfl⟩

theorem trans (h : KeepsMarks s t) (k : KeepsMarks t u) : KeepsMarks s u := ⟨fun i => (k.marks i).trans (h.marks i)⟩

theorem foldl {α : Type} {f : State → α → State} (h : ∀ s a, KeepsMarks s (f s a)) (as : List α) (s : State) :
    KeepsMarks s (as.foldl f s) := by
  induction as generalizing s with
  | nil => exact refl s
  | cons a as ih => exact (h s a).trans (ih _)

theorem ofSlots (slots : t.slots = s.slots) : KeepsMarks s t := ⟨fun i => by unfold State.slot; rw [slots]⟩

theorem raise (s : State) (e : Event) : KeepsMarks s (s.raise e) := ofSlots rfl

theorem modSlot (s : State) (i : SlotId) {f : Slot → Slot} (h : (f (s.slot i)).marks = (s.slot i).marks) :
    KeepsMarks s (s.modSlot i f) := ⟨fun j => by
  by_cases hj : j = i
  · subst hj; rw [State.slot_modSlot_self]; exact h
  · rw [State.slot_modSlot_ne _ _ hj]⟩

theorem ofOrders {i : SlotId} (h : MovesOrders i s t) : KeepsMarks s t := ⟨fun j => (h.slot j).marks⟩

theorem ofDemand (h : MovesDemand s t) : KeepsMarks s t := ⟨fun j => (h.slot j).marks⟩

/-- Where the marks and the racks out stay, every slot stays in step. -/
theorem racked (h : KeepsMarks s t) (hs : s.Racked) (pool : ∀ i, t.rackPool i = s.rackPool i) : t.Racked :=
  ⟨⟨fun i => by rw [pool]; exact (hs.by_.slot i).congr (h.marks i)⟩⟩

theorem rackedRoutes (h : KeepsMarks s t) (hs : s.Racked) (routes : t.routes = s.routes) : t.Racked :=
  h.racked hs (State.rackPool_routes routes)

theorem rackedBy {out : SlotId → Multiset ManifestLine} (h : KeepsMarks s t) (hs : s.RackedBy out) : t.RackedBy out :=
  ⟨fun i => (hs.slot i).congr (h.marks i)⟩

end KeepsMarks

variable (s : State) (i : SlotId)

theorem evaluate_keepsMarks : KeepsMarks s (s.evaluate i) := .ofOrders (evaluate_moves i s)

theorem applyDraw_keepsMarks (d : Nat) (seq : SeqNo) : KeepsMarks s (s.applyDraw i d seq) := by
  unfold State.applyDraw
  split
  · exact .refl s
  · dsimp only
    have drawn : KeepsMarks s (s.modSlot i fun x => x.drawn d) := .modSlot s i rfl
    refine .trans ?_ (evaluate_keepsMarks _ i)
    split
    · refine .trans ?_ (.raise _ _)
      exact drawn.trans (.modSlot _ i rfl)
    · exact drawn

theorem drawLine_keepsMarks (l : Line) (v : Variant) (seq : SeqNo) : KeepsMarks s (s.drawLine l v seq) := by
  unfold State.drawLine
  split
  · exact .refl s
  · exact .foldl (fun t i => applyDraw_keepsMarks t i _ seq) _ s

theorem starveLine_keepsMarks (l : Line) (v : Variant) (case : AdvanceCase) (seq : SeqNo) :
    KeepsMarks s (s.starveLine l v case seq) := by
  rw [State.starveLine_eq]
  exact .foldl (fun _ _ => .raise ..) _ s

theorem tellReturned_keepsMarks (r : RouteId) (lap : Lap) (cause : ReturnCause) (n : Nat) :
    KeepsMarks s (s.tellReturned r lap cause n) := by
  rw [State.tellReturned_rest]; exact .ofSlots rfl

theorem clearSlot_keepsMarks : KeepsMarks s (s.clearSlot i) :=
  (KeepsMarks.modSlot s i rfl).trans (evaluate_keepsMarks _ i)

theorem deliverBin_keepsMarks : KeepsMarks s (s.deliverBin i) := by
  unfold State.deliverBin
  split
  · exact .refl s
  · exact (KeepsMarks.modSlot s i rfl).trans (evaluate_keepsMarks _ i)

theorem Slot.moved_marks (x : Slot) (result : Option DiscKind) : (x.moved result).marks = x.marks := by
  unfold Slot.moved
  split
  · rfl
  · split <;> rfl

theorem actPolicy_keepsMarks : KeepsMarks s (s.actPolicy i) := by
  unfold State.actPolicy
  split
  · exact .refl s
  · exact (KeepsMarks.modSlot s i rfl).trans (evaluate_keepsMarks _ i)
  · exact .modSlot s i rfl

theorem reachFour_keepsMarks (k : DiscKind) : KeepsMarks s (s.reachFour i k) := by
  unfold State.reachFour
  dsimp only
  refine .trans ?_ (actPolicy_keepsMarks _ i)
  have declared : KeepsMarks s (s.modSlot i fun x => { x with discrepant := some k }) := .modSlot s i rfl
  split
  · exact declared.trans (.raise _ _)
  · exact declared

theorem checkSlot_keepsMarks (states : Vector SensorState 32) (w : SnapshotWork) (i : SlotId) :
    KeepsMarks w.st (checkSlot states w i).st := by
  cases hn : (w.st.slot i).cfg.sensor with
  | none =>
    have e : checkSlot states w i = w := by unfold checkSlot; dsimp only; rw [hn]
    rw [e]; exact .refl _
  | some n =>
    have moved (result : Option DiscKind) : KeepsMarks w.st (w.st.modSlot i fun x => x.moved result) :=
      .modSlot _ i (Slot.moved_marks ..)
    obtain ⟨-, e⟩ | ⟨k, -, -, e⟩ | ⟨k, -, -, -, e⟩ := checkSlot_cases states w hn <;> rw [e] <;> dsimp only
    · exact moved _
    · exact moved _
    · exact (moved _).trans (reachFour_keepsMarks _ i k)

theorem snapshot_keepsMarks (bank : Nat) (states : Vector SensorState 32) :
    KeepsMarks s ((s.slotsWhere (Slot.checkedBy bank)).foldl (checkSlot states) ⟨s, 0, 0⟩).st :=
  List.foldlRecOn _ (checkSlot states) (b := ⟨s, 0, 0⟩) (motive := fun w : SnapshotWork => KeepsMarks s w.st) (.refl s)
    fun w hw j _ => hw.trans (checkSlot_keepsMarks states w j)

/-! ## A build -/

variable {s i}

/-- The work of a build keeps each slot in step with the racks out and those it has placed. -/
def BuildWork.Racked (out : SlotId → Multiset ManifestLine) (w : BuildWork) : Prop :=
  w.st.RackedBy fun j => out j + racksIn w.lines j

/-- Placing a rack for a slot that has none out and none in the new lines (R37, R106, R107). -/
theorem considerRack_racked {out : SlotId → Multiset ManifestLine} (r : RouteId) {w : BuildWork} {i : SlotId} (h : w.Racked out)
    (pool : w.st.rackPool i = out i) (fresh : racksIn w.lines i = 0) : (considerRack r w i).Racked out := by
  obtain e | ⟨stop, k, -, none, hk, -, -, e⟩ := considerRack_cases r w i <;> rw [e]
  · exact h
  · refine ⟨fun j => ?_⟩
    have added : racksIn (w.lines ++ [w.st.newLine i stop (.rack k.first k.last k.positions) 1]) j =
        racksIn w.lines j + if j = i then {w.st.newLine i stop (.rack k.first k.last k.positions) 1} else 0 := by
      rw [racksIn_append, racksIn_cons, racksIn_nil, add_zero]
      by_cases hj : j = i
      · simp [ManifestLine.rackOut, ManifestLine.rackOf, State.newLine, hj]
      · simp [ManifestLine.rackOut, ManifestLine.rackOf, State.newLine, hj, Ne.symm hj]
    show ((w.st.coverThrough i k.last).slot j).Racked (out j + racksIn (w.lines ++ [_]) j)
    rw [added]
    by_cases hj : j = i
    · subst hj
      have empty : out j + racksIn w.lines j = 0 := by
        rw [← pool, (State.hasRackOut_pool _ _).mp none, fresh, add_zero]
      have before := h.slot j
      rw [empty] at before
      obtain ⟨m, hm, -, -, after⟩ := State.eligibleRack_some hk
      rw [if_pos rfl, ← add_assoc, empty, zero_add, State.coverThrough, State.slot_modSlot_self]
      refine ⟨by rw [Multiset.card_singleton], fun m' hm' => .inr ⟨_, Multiset.mem_singleton_self _, ?_⟩⟩
      rw [hm] at hm'
      cases hm'
      rw [before.covered hm] at after
      exact ⟨_, _, rfl, after⟩
    · rw [if_neg hj, add_zero, State.coverThrough, State.slot_modSlot_ne _ _ hj]
      exact h.slot j

theorem considerRack_fresh (r : RouteId) (w : BuildWork) {i j : SlotId} (hj : j ≠ i) :
    racksIn (considerRack r w i).lines j = racksIn w.lines j := by
  obtain e | ⟨stop, k, -, none, hk, -, -, e⟩ := considerRack_cases r w i <;> rw [e]
  show racksIn (w.lines ++ [_]) j = _
  rw [racksIn_append, racksIn_cons, racksIn_nil]
  simp [ManifestLine.rackOut, ManifestLine.rackOf, State.newLine, Ne.symm hj]

/-- Slots considered once each (R105, R106). -/
theorem foldl_considerRack_racked {out : SlotId → Multiset ManifestLine} (r : RouteId) : ∀ (is : List SlotId) (w : BuildWork),
    is.Nodup → w.Racked out → (∀ i, w.st.rackPool i = out i) → (∀ i ∈ is, racksIn w.lines i = 0) →
      (is.foldl (considerRack r) w).Racked out
  | [], _, _, h, _, _ => h
  | i :: is, w, nodup, h, pool, fresh => by
    obtain ⟨hi, his⟩ := List.nodup_cons.mp nodup
    refine foldl_considerRack_racked r is _ his (considerRack_racked r h (pool i) (fresh i List.mem_cons_self)) (fun j => ?_)
      fun j hj => ?_
    · rw [State.rackPool_routes (by rw [(considerRack_rest r w i).1])]
      exact pool j
    · rw [considerRack_fresh r w fun e => hi (by rw [← e]; exact hj)]
      exact fresh j (List.mem_cons_of_mem _ hj)
termination_by structural is => is

theorem considerBin_racked {out : SlotId → Multiset ManifestLine} {w : BuildWork} (h : w.Racked out) (d : DemandLine) :
    (considerBin w d).Racked out := by
  obtain e | ⟨route, stop, k, -, -, -, -, e⟩ := considerBin_cases w d <;> rw [e]
  · exact h
  · refine ⟨fun j => ?_⟩
    show ((w.st.takeOpen d.slot k).slot j).Racked (out j + racksIn (w.lines ++ [_]) j)
    have added : racksIn [w.st.newLine d.slot stop (.bin d.cls) k] j = 0 := by
      rw [racksIn_cons]
      simp [ManifestLine.rackOut, ManifestLine.rackOf, State.newLine, racksIn_nil]
    rw [racksIn_append, added, add_zero]
    exact (h.slot j).congr ((takeOpen_moves d.slot w.st k).slot j).marks

/-- What a build selects keeps every slot in step (R37, R105 to R110). -/
theorem State.selectLoad_racked {s : State} (h : s.Racked) (r : RouteId) : (s.selectLoad r).Racked s.rackPool := by
  have start : BuildWork.Racked s.rackPool ⟨s, (s.route r).cfg.caps, []⟩ := ⟨fun j => by rw [racksIn_nil, add_zero]; exact h.by_.slot j⟩
  have racks : (s.racksPlaced r).Racked s.rackPool :=
    foldl_considerRack_racked r _ _ (s.slotsWhere_nodup _) start (fun _ => rfl) fun _ _ => rfl
  have bins : (s.binsPlaced r).Racked s.rackPool :=
    List.foldlRecOn _ considerBin racks fun w hw d _ => considerBin_racked hw d
  rw [State.selectLoad_eq]
  generalize s.binsPlaced r = w at bins ⊢
  exact ⟨fun j => bins.slot j⟩

theorem buildInto_racked {s : State} (h : s.Racked) {r : RouteId} {k : Half} (free : (s.buffer r k).live = false) :
    (s.buildInto r k).Racked := by
  have selected := State.selectLoad_racked h r
  have route := (selectLoad_work s r).route
  unfold State.buildInto
  dsimp only
  generalize s.selectLoad r = w at *
  refine (KeepsMarks.raise _ _).rackedRoutes ⟨⟨fun i => ?_⟩⟩ rfl
  have out : (w.st.modRoute r fun x => x.filled k (s.offered r w.lines)).rackPool i = s.rackPool i + racksIn w.lines i := by
    have replaced := State.rackPool_replace (s := s) (t := w.st.modRoute r fun x => x.filled k (s.offered r w.lines)) (r := r)
      (k := k) (by unfold State.buffer; rw [State.route_modRoute_self, Route.filled_other, route])
      (fun q hq => by rw [State.route_modRoute_ne _ _ hq, route]) i
    have new : (w.st.modRoute r fun x => x.filled k (s.offered r w.lines)).buffer r k = s.offered r w.lines := by
      unfold State.buffer; rw [State.route_modRoute_self, Route.filled_buffer]
    rw [new, Buffer.racksFor_free free, add_zero, Buffer.racksFor_live (by rfl)] at replaced
    rw [replaced]
    congr 1
    exact racksIn_perm (manifestOrder_perm _) i
  rw [out]
  exact selected.slot i

/-! ## The points of a route -/

/-- A change of the routes that leaves every manifest's lines. -/
theorem State.Racked.ofLines {s t : State} (h : s.Racked) (slots : t.slots = s.slots) (same : ∀ r k,
    (t.buffer r k).live = (s.buffer r k).live ∧ (t.buffer r k).lines = (s.buffer r k).lines) : t.Racked :=
  (KeepsMarks.ofSlots slots).racked h (State.rackPool_congr same)

theorem State.Racked.modRoute {s : State} (h : s.Racked) (r : RouteId) {f : Route → Route}
    (same : ∀ x k, ((f x).buffers.get k).live = (x.buffers.get k).live ∧ ((f x).buffers.get k).lines = (x.buffers.get k).lines) :
    (s.modRoute r f).Racked := h.ofLines rfl fun q k => by
  unfold State.buffer
  by_cases hq : q = r
  · subst hq; rw [State.route_modRoute_self]; exact same _ k
  · rw [State.route_modRoute_ne _ _ hq]; exact ⟨rfl, rfl⟩

theorem State.Racked.modBuffer {s : State} (h : s.Racked) (r : RouteId) (k : Half) {f : Buffer → Buffer}
    (same : (f (s.buffer r k)).live = (s.buffer r k).live ∧ (f (s.buffer r k)).lines = (s.buffer r k).lines) :
    (s.modBuffer r k f).Racked := h.ofLines rfl fun q j => by
  by_cases hq : q = r
  · subst hq
    rcases k.eq_or_other j with rfl | rfl
    · rw [State.buffer_modBuffer_self]; exact same
    · rw [State.buffer_modBuffer_ne _ _ _ (Half.other_ne k)]; exact ⟨rfl, rfl⟩
  · rw [State.buffer_modBuffer_route_ne _ _ _ _ hq]; exact ⟨rfl, rfl⟩

theorem State.Racked.raise {s : State} (h : s.Racked) (e : Event) : (s.raise e).Racked :=
  (KeepsMarks.raise s e).rackedRoutes h rfl

theorem judgeDeparture_racked {s : State} (h : s.Racked) (r : RouteId) (k : Half) : (State.judgeDeparture r s k).Racked := by
  unfold State.judgeDeparture
  dsimp only
  have seen : (s.modBuffer r k fun b => { b with seen := min (b.seen + 1) 2 }).Racked := h.modBuffer r k ⟨rfl, rfl⟩
  split
  · split
    · have told := seen.modBuffer r k (f := fun b => { b with overdue := true }) ⟨rfl, rfl⟩
      refine .raise ?_ _
      exact told.modRoute r fun _ _ => ⟨rfl, rfl⟩
    · exact seen
  · split
    · unfold State.goLate
      split
      · exact seen
      · refine .raise ?_ _
        exact seen.modRoute r fun _ _ => ⟨rfl, rfl⟩
    · exact seen

theorem settled_racked {s : State} (h : s.Racked) (r : RouteId) : (s.modRoute r fun x => { x with due := none }).Racked :=
  h.modRoute r fun _ _ => ⟨rfl, rfl⟩

theorem departurePoint_racked {s : State} (h : s.Racked) (r : RouteId) : (s.departurePoint r).Racked :=
  settled_racked (List.foldlRecOn _ (State.judgeDeparture r) h fun _ ht k _ => judgeDeparture_racked ht r k) r

theorem wrapPoint_racked {s : State} (h : s.Racked) (r : RouteId) : (s.wrapPoint r).Racked :=
  h.modRoute r fun x k => by rw [Route.wrapped_buffers]; exact ⟨rfl, rfl⟩

theorem skippedPoint_racked {s : State} (h : s.Racked) (r : RouteId) : (s.skippedPoint r).Racked :=
  h.modRoute r fun _ _ => ⟨rfl, rfl⟩

theorem build_racked {s : State} (h : s.Racked) (r : RouteId) : (s.build r).Racked := by
  unfold State.build
  dsimp only
  split
  · exact h.modRoute r fun _ _ => ⟨rfl, rfl⟩
  · split
    next k hk => exact buildInto_racked h (Route.freeHalf_some.mp hk).1
    · refine .raise ?_ _
      exact h.modRoute r fun _ _ => ⟨rfl, rfl⟩

theorem buildPoint_racked {s : State} (h : s.Racked) (r : RouteId) : (s.buildPoint r).Racked :=
  settled_racked (build_racked ((KeepsMarks.ofDemand (retestUncovered_moves s)).rackedRoutes h (retestUncovered_work s).routes) r) r

theorem takeDue_racked {s : State} (h : s.Racked) (r : RouteId) : (s.takeDue r).Racked := by
  unfold State.takeDue
  split
  · exact h
  · exact wrapPoint_racked h r
  · exact buildPoint_racked h r
  · exact departurePoint_racked h r
  · exact skippedPoint_racked h r

theorem settleRoutes_racked {s : State} (h : s.Racked) : s.settleRoutes.Racked :=
  List.foldlRecOn routeIds State.settleRoute h fun _ ht r _ => takeDue_racked (takeDue_racked ht r) r

/-! ## Manifests -/

/-- A rolled back slot's marks are equal (R39). -/
theorem State.rollback_racked {s : State} {out out' : SlotId → Multiset ManifestLine} (h : s.RackedBy out) (i : SlotId)
    (card : (out' i).card ≤ 1) (outs : ∀ j, j ≠ i → out' j = out j) : (s.rollback i).RackedBy out' := ⟨fun j => by
  by_cases hj : j = i
  · subst hj
    refine .level card fun m hm => ?_
    rw [State.rollback, State.slot_modSlot_self] at hm
    obtain ⟨m', -, rfl⟩ := Option.map_eq_some_iff.mp hm
    rfl
  · rw [outs j hj, State.rollback_only s i j hj]
    exact h.slot j⟩

/-- A line handed back is no longer out (R122). -/
theorem returnLine_racked {s : State} {out out' : SlotId → Multiset ManifestLine} (h : s.RackedBy out) {x : ManifestLine}
    (planned : x.state = .planned) (n : Nat) (cls : DemandClass) (outs : ∀ j, out j = out' j + if x.rackOut j then {x} else 0) :
    (s.returnLine x n cls).RackedBy out' := by
  have rackOut (j : SlotId) : x.rackOut j = x.rackOf j := by simp [ManifestLine.rackOut, planned]
  unfold State.returnLine
  split
  next c hl =>
    have same : out' = out := funext fun j => by rw [outs j, rackOut]; simp [ManifestLine.rackOf, hl]
    rw [same]
    split
    · exact h
    · exact (KeepsMarks.ofOrders (returnBins_moves ..)).rackedBy h
  next hl =>
    refine State.rollback_racked h x.slot ?_ fun j hj => ?_
    · have := (h.slot x.slot).one
      rw [outs x.slot, Multiset.card_add] at this
      omega
    · rw [outs j, rackOut]
      simp [ManifestLine.rackOf, hl, Ne.symm hj]

theorem foldl_returnPlanned_racked (cls : ManifestLine → DemandClass) :
    ∀ (xs : List ManifestLine) (s : State) (out out' : SlotId → Multiset ManifestLine), (∀ x ∈ xs, x.state = .planned) →
      s.RackedBy out → (∀ j, out j = out' j + racksIn xs j) → (xs.foldl (State.returnPlanned cls) s).RackedBy out'
  | [], s, out, out', _, h, outs => by
    have : out' = out := funext fun j => by rw [outs j, racksIn_nil, add_zero]
    rw [this]; exact h
  | x :: xs, s, out, out', planned, h, outs => by
    refine foldl_returnPlanned_racked cls xs _ (fun j => out' j + racksIn xs j) out'
      (fun y hy => planned y (List.mem_cons_of_mem _ hy)) ?_ fun _ => rfl
    refine returnLine_racked h (planned x List.mem_cons_self) _ _ fun j => ?_
    rw [outs j, racksIn_cons]
    abel

theorem handBack_racked {s : State} (h : s.Racked) {r : RouteId} {k : Half} (live : (s.buffer r k).live = true)
    (sel : ManifestLine → Bool) (cls : ManifestLine → DemandClass) : (s.handBack r k sel cls).Racked := by
  have buffer := s.handBack_buffer r k sel cls
  have outs (j : SlotId) : s.rackPool j = (s.handBack r k sel cls).rackPool j + racksIn (s.backLines r k sel) j := by
    have replaced := State.rackPool_replace (s := s) (t := s.handBack r k sel cls) (r := r) (k := k)
      (by unfold State.buffer; rw [State.handBack_route]; exact State.buffer_modBuffer_ne s r _ k.other_ne)
      (fun q hq => by rw [State.handBack_route]; exact State.route_modRoute_ne s _ hq) j
    rw [Buffer.racksFor_live live, Buffer.racksFor_live (by rw [buffer]; exact live), buffer] at replaced
    rw [← racksIn_markReturned sel (s.buffer r k).lines j] at replaced
    unfold State.backLines
    have replaced : _ + (_ + _) = _ + _ := replaced
    rw [add_comm (racksIn _ _), ← add_assoc] at replaced
    exact (add_right_cancel replaced).symm
  have planned : ∀ x ∈ s.backLines r k sel, x.state = .planned := fun x hx => by
    have := (List.mem_filter.mp hx).2
    simp only [handedBack, Bool.and_eq_true, beq_iff_eq] at this
    exact this.1
  exact ⟨⟨(foldl_returnPlanned_racked cls _ s _ _ planned h.by_ outs).slot⟩⟩

/-- A buffer with no rack out is freed (R136). -/
theorem freed_racked {s : State} (h : s.Racked) {r : RouteId} {k : Half} (done : ∀ x ∈ (s.buffer r k).lines, x.state ≠ .planned) :
    (s.modRoute r fun x => x.freed k).Racked := by
  refine (KeepsMarks.ofSlots (s := s) (t := s.modRoute r fun x => x.freed k) rfl).racked h fun i => ?_
  have replaced := State.rackPool_replace (s := s) (t := s.modRoute r fun x => x.freed k) (r := r) (k := k)
    (by unfold State.buffer; rw [State.route_modRoute_self, Route.freed_other])
    (fun q hq => State.route_modRoute_ne s _ hq) i
  have before : (s.buffer r k).racksFor i = 0 := by
    unfold Buffer.racksFor
    rw [racksIn_eq_zero fun x hx => by simp [ManifestLine.rackOut, done x hx], ite_self]
  have after : ((s.modRoute r fun x => x.freed k).buffer r k).racksFor i = 0 := by
    refine Buffer.racksFor_free ?_ i
    unfold State.buffer
    rw [State.route_modRoute_self, Route.freed_buffer]
    rfl
  rwa [before, after, add_zero, add_zero] at replaced

theorem tellReturned_racked {s : State} (h : s.Racked) (r : RouteId) (lap : Lap) (cause : ReturnCause) (n : Nat) :
    (s.tellReturned r lap cause n).Racked := (tellReturned_keepsMarks ..).rackedRoutes h (tellReturned_work ..).routes

theorem ended_racked {s : State} (hs : s.Racked) {r : RouteId} {h : Half} (live : (s.buffer r h).live = true)
    (cls : ManifestLine → DemandClass) (lap : Lap) (cause : ReturnCause) (n : Nat) :
    (((s.handBack r h (fun _ => true) cls).tellReturned r lap cause n).modRoute r fun x => x.freed h).Racked := by
  refine freed_racked (tellReturned_racked (handBack_racked hs live (fun _ => true) cls) ..) fun x hx => ?_
  have told : (((s.handBack r h (fun _ => true) cls).tellReturned r lap cause n).buffer r h) =
      (s.handBack r h (fun _ => true) cls).buffer r h := by
    unfold State.buffer; rw [(tellReturned_work ..).route]
  rw [told, State.handBack_buffer] at hx
  obtain ⟨y, -, rfl⟩ := List.mem_map.mp hx
  unfold markReturned
  split
  · exact fun h => nomatch h
  next hy => exact fun planned => hy (by simp [handedBack, planned])

/-- A line replaced in a live manifest's list changes what is out by that line (R125, R133). -/
theorem State.rackPool_set {s : State} {r : RouteId} {k : Half} {f : Buffer → Buffer} (live : (s.buffer r k).live = true) {n : Nat}
    {x y : ManifestLine} (line : (s.buffer r k).lines[n]? = some x) (after : (f (s.buffer r k)).live = true)
    (lines : (f (s.buffer r k)).lines = (s.buffer r k).lines.set n y) (j : SlotId) :
    (s.modBuffer r k f).rackPool j + (if x.rackOut j then {x} else 0) = s.rackPool j + if y.rackOut j then {y} else 0 := by
  have replaced := State.rackPool_replace (s := s) (t := s.modBuffer r k f) (r := r) (k := k)
    (State.buffer_modBuffer_ne s r _ k.other_ne) (fun q hq => State.route_modRoute_ne s _ hq) j
  rw [State.buffer_modBuffer_self, Buffer.racksFor_live live, Buffer.racksFor_live after, lines] at replaced
  have set := racksIn_set line y j
  refine add_right_cancel (b := racksIn (s.buffer r k).lines j) ?_
  calc _ = ((s.modBuffer r k f).rackPool j + racksIn (s.buffer r k).lines j) + if x.rackOut j then {x} else 0 := by abel
    _ = s.rackPool j + (racksIn ((s.buffer r k).lines.set n y) j + if x.rackOut j then {x} else 0) := by rw [replaced, add_assoc]
    _ = _ := by rw [set]; abel

theorem shortPick_racked {s : State} (h : s.Racked) {r : RouteId} {k : Half} {n picked : Nat} {x : ManifestLine}
    (live : (s.buffer r k).live = true) (line : (s.buffer r k).lines[n]? = some x) (law : x.Law) (fewer : picked < x.held)
    (planned : x.state = .planned) :
    ((s.modBuffer r k fun b => b.shortPicked n x picked).returnLine x (x.held - picked) .urgent).Racked := by
  have outs (j : SlotId) : s.rackPool j =
      (s.modBuffer r k fun b => b.shortPicked n x picked).rackPool j + if x.rackOut j then {x} else 0 := by
    rw [State.rackPool_set live line (y := x.shortPicked picked) live rfl]
    suffices (x.shortPicked picked).rackOut j = false by rw [this]; simp
    cases hl : x.load with
    | bin c => simp [ManifestLine.rackOut, ManifestLine.rackOf, ManifestLine.shortPicked, hl]
    | rack a b m =>
      have one := (law.rack a b m hl).1
      have := law.held
      have : picked = 0 := by omega
      simp [ManifestLine.rackOut, ManifestLine.shortPicked, this]
  have picked_ : (s.modBuffer r k fun b => b.shortPicked n x picked).RackedBy s.rackPool := ⟨h.by_.slot⟩
  have back := returnLine_racked picked_ planned (x.held - picked) .urgent outs
  exact ⟨⟨fun i => by rw [State.rackPool_routes (returnLine_work ..).routes]; exact back.slot i⟩⟩

theorem seqAfter_self (x : SeqNo) : seqAfter x x = false := by simp [seqAfter]

/-- The delivery of the one rack that is out levels the marks (R38). -/
theorem Marks.delivers_level {m : Marks} {last : SeqNo}
    (h : m.covered = m.delivered ∨ (m.covered = last ∧ seqAfter last m.delivered = true)) :
    (m.delivers last).covered = (m.delivers last).delivered := by
  unfold Marks.delivers
  dsimp only
  rcases h with e | ⟨e, after⟩
  · rw [e]
    by_cases after : seqAfter last m.delivered = true
    · rw [if_pos after, if_pos after]
    · rw [if_neg after, seqAfter_self]; simp
  · rw [if_pos after, e, seqAfter_self]; simp

theorem dropHit_racked {s : State} (h : s.Racked) {r : RouteId} {k : Half} {n : Nat} {y : ManifestLine}
    (live : (s.buffer r k).live = true) (line : (s.buffer r k).lines[n]? = some y) (law : y.Law) (planned : y.state = .planned) :
    ((s.modBuffer r k fun b => { b with lines := b.lines.set n y.dropped }).deliverLine y.dropped).Racked := by
  have outs (j : SlotId) : s.rackPool j =
      (s.modBuffer r k fun b => { b with lines := b.lines.set n y.dropped }).rackPool j + if y.rackOut j then {y} else 0 := by
    rw [State.rackPool_set live line (y := y.dropped) live rfl]
    suffices y.dropped.rackOut j = false by rw [this]; simp
    cases hl : y.load with
    | bin c => simp [ManifestLine.rackOut, ManifestLine.rackOf, ManifestLine.dropped, hl]
    | rack a b m =>
      have one := (law.rack a b m hl).1
      have := law.held
      have := law.open_ planned
      have : y.delivered + 1 = y.held := by omega
      simp [ManifestLine.rackOut, ManifestLine.dropped, this]
  have rackOut (j : SlotId) : y.rackOut j = y.rackOf j := by simp [ManifestLine.rackOut, planned]
  have dropped : (s.modBuffer r k fun b => { b with lines := b.lines.set n y.dropped }).RackedBy s.rackPool := ⟨h.by_.slot⟩
  generalize (s.modBuffer r k fun b => { b with lines := b.lines.set n y.dropped }) = u at *
  suffices (u.deliverLine y.dropped).RackedBy u.rackPool from
    ⟨⟨fun i => by rw [State.rackPool_routes (deliverLine_work ..).routes]; exact this.slot i⟩⟩
  unfold State.deliverLine
  split
  next c hl =>
    have load : y.load = .bin c := hl
    have same : u.rackPool = s.rackPool := funext fun j => by rw [outs j, rackOut]; simp [ManifestLine.rackOf, load]
    rw [same]
    exact (deliverBin_keepsMarks u _).rackedBy dropped
  next a b m hl =>
    have load : y.load = .rack a b m := hl
    refine ⟨fun j => ?_⟩
    have before := dropped.slot j
    rw [outs j, rackOut] at before
    by_cases hj : j = y.slot
    · subst hj
      rw [if_pos (by simp [ManifestLine.rackOf, load])] at before
      have card := before.one
      rw [Multiset.card_add, Multiset.card_singleton] at card
      have none : u.rackPool y.slot = 0 := Multiset.card_eq_zero.mp (by omega)
      rw [none, zero_add] at before
      rw [none]
      refine .level (Nat.zero_le _) fun m' hm' => ?_
      have slot : (u.deliverRack y.dropped.slot b).slot y.slot = _ := State.slot_modSlot_self u y.slot _
      rw [slot] at hm'
      obtain ⟨m0, hm0, rfl⟩ := Option.map_eq_some_iff.mp hm'
      refine Marks.delivers_level ?_
      rcases before.marks m0 hm0 with e | ⟨z, hz, a', n', hload, after⟩
      · exact .inl e
      · rw [Multiset.mem_singleton.mp hz, load] at hload
        cases hload
        exact .inr ⟨rfl, after⟩
    · rw [if_neg (by simpa [ManifestLine.rackOf, load] using Ne.symm hj), add_zero] at before
      have slot : (u.deliverRack y.dropped.slot b).slot j = u.slot j := State.slot_modSlot_ne u _ hj
      rw [slot]
      exact before

/-! ## The apply and the announcement -/

theorem LineSequence.rebased_level {q : LineSequence} {m : Marks} (h : q.rebased = some m) : m.covered = m.delivered := by
  unfold LineSequence.rebased at h
  split at h
  · cases h
  · split at h <;> cases h <;> rfl

/-- An adjustment keeps its slot's marks, levels them, or leaves none (R29, R162). -/
theorem State.adjustSlot_marks (s : State) (i : SlotId) : ((s.adjustSlot i).slot i).marks = (s.slot i).marks ∨
    ∀ m, ((s.adjustSlot i).slot i).marks = some m → m.covered = m.delivered := by
  have := adjustSlot_slot s i rfl rfl
  split at this
  · exact .inl this.marks
  · rw [this]; exact .inr fun m => LineSequence.rebased_level
  · rw [this]; exact .inr fun m h => nomatch h
  · rw [this]
    dsimp only
    split
    · exact .inl rfl
    · exact .inr fun m => LineSequence.rebased_level

theorem adjustSlot_racked {s : State} (h : s.Racked) (i : SlotId) : (s.adjustSlot i).Racked := ⟨⟨fun j => by
  rw [State.rackPool_routes (s := s) (by rw [(adjustSlot_moves s i).rest])]
  by_cases hj : j = i
  · subst hj
    rcases s.adjustSlot_marks j with e | e
    · exact (h.by_.slot j).congr e
    · exact .level (h.by_.slot j).one e
  · rw [(adjustSlot_moves s i).others j hj]
    exact h.by_.slot j⟩⟩

theorem applyImage_racked {s : State} (h : s.Racked) (line : Option Line) (mode : ApplyMode) (seq : SeqNo) :
    (s.applyImage line mode seq).Racked := by
  have tables : s.applyGlobals.applyUsage.applyWindows.applyRoutes.Racked := by
    refine h.ofLines ?_ fun r k => ?_
    · rw [State.applyRoutes_rest]; rfl
    · unfold State.buffer
      rw [State.applyRoutes_route, Route.applied_buffers]
      exact ⟨rfl, rfl⟩
  unfold State.applyImage
  dsimp only
  generalize s.applyGlobals.applyUsage.applyWindows.applyRoutes = t at *
  have adjusted : (s.changedSlots.foldl State.adjustSlot t).Racked :=
    List.foldlRecOn s.changedSlots State.adjustSlot tables fun u hu i _ => adjustSlot_racked hu i
  generalize s.changedSlots.foldl State.adjustSlot t = u at *
  refine .raise ?_ _
  split
  · exact adjusted
  · exact (KeepsMarks.foldl evaluate_keepsMarks _ u).rackedRoutes adjusted (Work.foldl evaluate_work _ u).routes

theorem anchor_racked {s : State} (h : s.Racked) (l : Line) (seq : SeqNo) : (s.anchor l seq).Racked := ⟨⟨fun i => by
  have pool : (s.anchor l seq).rackPool i = s.rackPool i := State.rackPool_routes rfl i
  rw [pool, State.anchor_slot]
  split
  · exact .level (h.by_.slot i).one fun m hm => by cases hm; rfl
  · exact h.by_.slot i⟩⟩

/-! ## Every step -/

theorem takeAdvance_racked {s : State} (h : s.Racked) (l : Line) (seq : SeqNo) (v : Variant) (mark : Bool) :
    (s.takeAdvance l seq v mark).Racked := by
  have disarmed (t : State) (a : ApplyState) (ht : t.Racked) : ({ t with applyState := a } : State).Racked :=
    ht.ofLines rfl fun _ _ => ⟨rfl, rfl⟩
  have settled : (s.settleList l seq (settle (s.seq l).units seq)).Racked :=
    (KeepsMarks.ofSlots (by rw [State.settleList_rest])).rackedRoutes h (by rw [State.settleList_rest])
  have applied (t : State) (m : Bool) (ht : t.Racked) : (t.applyAtMark l m seq).Racked := by
    unfold State.applyAtMark
    split
    · exact disarmed _ _ (applyImage_racked ht ..)
    · exact ht
  have drawn := (drawLine_keepsMarks _ l v seq).rackedRoutes
    (applied _ (mark || (settle (s.seq l).units seq).marked) settled) (drawLine_work ..).routes
  exact (starveLine_keepsMarks _ l v _ seq).rackedRoutes drawn (starveLine_work ..).routes

theorem runReset_racked (s : State) : s.runReset.Racked := ⟨⟨fun i => by
  have pool : s.runReset.rackPool i = 0 := by
    refine List.sum_eq_zero fun n hn => ?_
    obtain ⟨r, -, rfl⟩ := List.mem_map.mp hn
    dsimp only
    rw [State.runReset_buffer, State.runReset_buffer, Buffer.racksFor_free (b := (s.buffer r .lower).cleared) rfl,
      Buffer.racksFor_free (b := (s.buffer r .upper).cleared) rfl, add_zero]
  rw [pool, State.runReset_slot]
  exact .level (Nat.zero_le _) fun m hm => nomatch hm⟩⟩

theorem effect_racked {s u : State} (law : s.Lawful) (h : Effect s u) : u.Racked := by
  have racked : s.Racked := s.racked_iff.mpr law.rack
  have quiet {t : State} (slots : t.slots = s.slots) (routes : t.routes = s.routes) : t.Racked :=
    (KeepsMarks.ofSlots slots).rackedRoutes racked routes
  have entered (t : State) (m : DeviceMode) (h : t.Racked) : (t.enter m).Racked := h.ofLines rfl fun _ _ => ⟨rfl, rfl⟩
  have step {r : RouteId} {k : Half} {st : BufferState} (hst : st ≠ .free) (from_ : (s.buffer r k).state ≠ .free) :
      (s.modBuffer r k fun b => { b with state := st }).Racked :=
    racked.modBuffer r k ⟨by rw [(Buffer.live_iff _).mpr from_, (Buffer.live_iff _).mpr hst], rfl⟩
  have ordered {t : State} {i : SlotId} (moves : MovesOrders i s t) : t.Racked :=
    (KeepsMarks.ofOrders moves).rackedRoutes racked moves.routes
  cases h with
  | nothing => exact racked
  | edge | gate | readNotices | setNoticeMode | announceNext | stageSlot | stageUsage | stageRoute | stageWindow | stageGlobals
  | arm | divert | startAgain => exact quiet rfl rfl
  | powerOn v => exact (State.racked_iff _).mpr (s.poweredOn_lawful v).rack
  | announceFirst l seq v mark =>
    exact (anchor_racked racked l seq).ofLines rfl fun _ _ => ⟨rfl, rfl⟩
  | decisecond =>
    have ticked (t : State) (ht : t.Racked) : t.tickClocks.countRoutes.Racked := ht.ofLines rfl fun r k => by
      unfold State.buffer
      rw [State.countRoutes_route]
      split
      · rw [Route.count_buffers]; exact ⟨rfl, rfl⟩
      · exact ⟨rfl, rfl⟩
    exact ticked _ (settleRoutes_racked racked)
  | wrap r => exact wrapPoint_racked racked r
  | build r => exact buildPoint_racked racked r
  | departure r => exact departurePoint_racked racked r
  | skipped r => exact skippedPoint_racked racked r
  | advance l seq v mark => exact takeAdvance_racked racked l seq v mark
  | snapshot bank states => exact (snapshot_keepsMarks ..).rackedRoutes racked (snapshot_work ..).routes
  | depart r k awake idle loaded =>
    obtain ⟨alive, -⟩ := State.manifestIn_some loaded
    refine State.Racked.modRoute ?_ r fun _ _ => ⟨rfl, rfl⟩
    exact racked.modBuffer r k ⟨by rw [alive]; rfl, rfl⟩
  | arrive r k id n awake train found =>
    have back := handBack_racked racked (State.manifestIn_some train).1 (leftBehind (s.route r).current (s.route r).pointer n) asUrgent
    exact (tellReturned_racked back ..).modRoute r fun _ _ => ⟨rfl, rfl⟩
  | dropMissed r => exact racked.modRoute r fun _ _ => ⟨rfl, rfl⟩
  | late r on => exact racked.modRoute r fun _ _ => ⟨rfl, rfl⟩
  | hold r on => exact racked.modRoute r fun _ _ => ⟨rfl, rfl⟩
  | dropHit r k n y awake train line planned =>
    exact dropHit_racked racked (State.manifestIn_some train).1 line ((law.manifest r k).lines y (List.mem_of_getElem? line)) planned
  | lapEnd r k awake train => exact ended_racked racked (State.manifestIn_some train).1 ..
  | cancelManifest r k alive waiting => exact ended_racked racked ((Buffer.live_iff _).mpr alive) ..
  | beginPick r k awake offered => exact step (by decide) (by rw [offered]; decide)
  | loadConfirm r k awake waiting =>
    exact step (by decide) (by rcases waiting with e | e <;> rw [e] <;> decide)
  | shortPick r k n x picked awake waiting line fewer =>
    have before : (s.buffer r k).state ≠ .onRoute ∧ (s.buffer r k).live = true := by
      rw [Buffer.live_iff]
      rcases waiting with e | e <;> rw [e] <;> decide
    have mem := List.mem_of_getElem? line
    obtain ⟨-, planned | ⟨-, none⟩⟩ := (law.manifest r k).waiting before.1 x mem
    · exact tellReturned_racked (shortPick_racked racked before.2 line ((law.manifest r k).lines x mem) fewer planned) ..
    · omega
  | apply => exact applyImage_racked racked ..
  | topupMerged i g => exact ordered ((mergeOpen_moves i s g _).trans (raiseOrdered_moves i _ g))
  | topupCreated i g => exact ordered ((createOpen_moves i s g _).trans (raiseOrdered_moves i _ g))
  | topupRefused i g => exact ordered (refuseLine_moves i i s _ g)
  | cancelDemand i x => exact ordered ((removeOpen_moves i s).trans (lowerOrdered_moves i _ _))
  | clear i awake agreeing => exact (clearSlot_keepsMarks ..).rackedRoutes racked (clearSlot_work agreeing).routes
  | startCold | runReset => exact entered _ _ (runReset_racked s)
  | stop => exact entered _ _ (settleRoutes_racked racked)

end Sys2Proof.Machine

open Sys2Proof Sys2Proof.Machine

/-- Settles O12: each effect keeps every slot in step with the racks of the live manifests. -/
theorem racksStayOneToASlot : Obligations.RacksStayOneToASlot := by
  intro s t law taken
  exact t.racked_iff.mp (step_keeps (fun _ _ _ h => h.ofLines rfl fun _ _ => ⟨rfl, rfl⟩) effect_racked law
    (s.racked_iff.mpr law.rack) taken)
end

section
/-!
PROOFS: the commands as such, the gates, and the flags of one route. Every command answers a next state and keeps the queue of those
that wait; a request is its owner's where its port may send it, and only answered where not.
-/

namespace Sys2Proof.Machine

open Sys2Proof

/-! ## The commands that wait -/

theorem Work.pending {s t : State} (h : Work s t) : t.pending = s.pending := by rw [h.rest]

theorem applyImage_pending (s : State) (line : Option Line) (mode : ApplyMode) (seq : SeqNo) :
    (s.applyImage line mode seq).pending = s.pending := by rw [s.applyImage_rest]

theorem settleRoutes_pending (s : State) : s.settleRoutes.pending = s.pending := by
  rw [s.settleRoutes_rest]

theorem settleList_pending (s : State) (l : Line) (seq : SeqNo) (a : Settled) : (s.settleList l seq a).pending = s.pending := by
  rw [s.settleList_rest]

theorem takeAdvance_pending (s : State) (l : Line) (seq : SeqNo) (v : Variant) (mark : Bool) :
    (s.takeAdvance l seq v mark).pending = s.pending := by
  unfold State.takeAdvance
  unfold State.applyAtMark
  dsimp only
  rw [(starveLine_work ..).pending, (drawLine_work ..).pending]
  split
  · exact (applyImage_pending _ (some l) .atMark seq).trans (settleList_pending ..)
  · exact settleList_pending ..

theorem handBack_pending (s : State) (r : RouteId) (h : Half) (sel : ManifestLine → Bool) (cls : ManifestLine → DemandClass) :
    (s.handBack r h sel cls).pending = s.pending := by rw [s.handBack_rest]

theorem ticked_pending (s : State) : s.tickClocks.countRoutes.pending = s.pending := rfl

theorem modRoute_pending_eq (s : State) (r : RouteId) (f : Route → Route) : (s.modRoute r f).pending = s.pending := rfl

theorem enter_pending (s : State) (m : DeviceMode) : (s.enter m).pending = s.pending := rfl

/-- No effect takes a command from the queue or puts one there (log 22). -/
theorem Effect.keepsPending {s u : State} (h : Effect s u) : u.pending = s.pending := by
  cases h with
  | decisecond => exact (ticked_pending _).trans (settleRoutes_pending s)
  | build r => rw [(buildPoint_moves s r).rest]
  | departure r => rw [(departurePoint_moves s r).rest]
  | advance => exact takeAdvance_pending ..
  | snapshot => exact (snapshot_work ..).pending
  | arrive | lapEnd | cancelManifest => exact (modRoute_pending_eq ..).trans ((tellReturned_work ..).pending.trans (handBack_pending ..))
  | dropHit => exact (deliverLine_work ..).pending
  | shortPick => exact (tellReturned_work ..).pending.trans (returnLine_work ..).pending
  | apply => exact applyImage_pending ..
  | topupMerged i g => exact (mergeOpen_moves i s g .topup).pending
  | topupCreated i g => exact (createOpen_moves i s g .topup).pending
  | topupRefused i g => exact (refuseLine_moves i i s .topup g).pending
  | clear i => exact (s.clearSlot_moves i).pending
  | stop => exact (enter_pending ..).trans (settleRoutes_pending s)
  | _ => rfl

/-- Every command answers a next state. -/
theorem exec_next (i : Instr) (s : State) : ∃ t, exec i s = .next t := by cases i <;> exact ⟨_, rfl⟩

/-! ## Requests, permitted or not -/

variable {s : State} {p : Port} {i : Instr} {q : Request} {st : Status} {b : Body}

/-- A request that its owner only answers. -/
theorem exec_onlyAnswers (hs : s.resetN = .high) (hi : requestIn? i = some (p, q)) (hp : permitted p q = true)
    (h : takeOwner i s = reply p st b s) : ∃ t, exec i s = .next t ∧ OnlyAnswered s t p st b :=
  ⟨_, exec_request hi hs hp, h ▸ reply_onlyAnswers s p st b⟩

/-- A request that its owner answers with one route changed. -/
theorem exec_modRoute {r : RouteId} {f : Route → Route} (hs : s.resetN = .high) (hi : requestIn? i = some (p, q))
    (hp : permitted p q = true) (h : takeOwner i s = reply p st b (s.modRoute r f)) :
    ∃ t, exec i s = .next t ∧ Answered s t p st b ∧ t = { s with routes := t.routes, ports := t.ports } ∧ OnlyRoute s t r ∧
      t.route r = f (s.route r) := by
  refine ⟨_, exec_request hi hs hp, ?_⟩
  rw [h]
  exact ⟨reply_answers rfl, rfl, fun k hk => by rw [reply_route, State.route_modRoute_ne s _ hk],
    by rw [reply_route, State.route_modRoute_self]⟩

/-- An event happens where RESET_N is high. -/
theorem exec_event {event : State → State} (hs : s.resetN = .high) (e : exec i s = takeEvent s event) :
    exec i s = .next (event s) := e.trans (takeEvent_taken hs)

/-! ## Gates -/

/-- A change of a RUN input moves its line's clock alone. -/
theorem runEdge_taken {l : Line} {v : Level} (h : (s.clock l).run ≠ v) :
    exec (.runEdge l v) s = .next (s.modClock l fun x => x.edge v) :=
  congrArg Host.Outcome.next (if_neg h)

/-- What an edge leaves of a line's clock (R77). -/
theorem LineClock.edge_rest (x : LineClock) (v : Level) :
    x.edge v = { x with run := v, isOpen := (x.edge v).isOpen, fired := (x.edge v).fired } := by
  unfold LineClock.edge
  cases x.mode
  · rfl
  · dsimp only; split <;> rfl
  · dsimp only; split <;> rfl
  · rfl
  · rfl

theorem LineClock.edge_follow {x : LineClock} (h : x.mode = .follow) (v : Level) :
    (x.edge v).isOpen = (v == .high) ∧ (x.edge v).fired = x.fired := by simp [LineClock.edge, h]

theorem LineClock.edge_fixed {x : LineClock} (h : x.mode = .opened ∨ x.mode = .held) (v : Level) :
    (x.edge v).isOpen = x.isOpen ∧ (x.edge v).fired = x.fired := by
  obtain h | h := h <;> simp [LineClock.edge, h]

theorem LineClock.edge_spent {x : LineClock} (h : x.mode = .startOnce ∨ x.mode = .stopOnce) (spent : x.fired = true) (v : Level) :
    (x.edge v).isOpen = x.isOpen ∧ (x.edge v).fired = true := by
  obtain h | h := h <;> simp [LineClock.edge, h, spent]

theorem LineClock.edge_startOnce {x : LineClock} (h : x.mode = .startOnce) (armed : x.fired = false) (v : Level) :
    (x.edge v).isOpen = (x.isOpen || v == .high) ∧ (x.edge v).fired = (v == .high) := by
  cases v <;> simp [LineClock.edge, h, armed]

theorem LineClock.edge_stopOnce {x : LineClock} (h : x.mode = .stopOnce) (armed : x.fired = false) (v : Level) :
    (x.edge v).isOpen = (x.isOpen && v == .high) ∧ (x.edge v).fired = (v == .low) := by
  cases v <;> simp [LineClock.edge, h, armed]

/-! ## Route controls -/

theorem ackLate_badArg {n : Nat} (awake : ¬(p = .sp ∧ s.mode = .cold)) (hn : 5 < n) :
    ackLate p n s = reply p .badArg .empty s := by simp only [ackLate, if_neg awake, routeOf_eq_none hn]

theorem ackLate_ok (awake : ¬(p = .sp ∧ s.mode = .cold)) (r : RouteId) :
    ackLate p r.val s = reply p .ok (.was (s.route r).late) (s.modRoute r fun x => { x with late := false }) := by
  simp only [ackLate, if_neg awake, routeOf_val]

theorem presetLate_badArg {n : Nat} (hn : 5 < n) : presetLate p n s = reply p .badArg .empty s := by
  simp only [presetLate, routeOf_eq_none hn]

theorem presetLate_ok (r : RouteId) :
    presetLate p r.val s = reply p .ok (.was (s.route r).late) (s.modRoute r fun x => { x with late := true }) := by
  simp only [presetLate, routeOf_val]

theorem setHold_badArg {n : Nat} (hn : 5 < n) (on : Bool) : setHold p n on s = reply p .badArg .empty s := by
  simp only [setHold, routeOf_eq_none hn]

theorem setHold_ok (r : RouteId) (on : Bool) :
    setHold p r.val on s = reply p .ok (.was (s.route r).hold) (s.modRoute r fun x => { x with hold := on }) := by
  simp only [setHold, routeOf_val]

/-! ## Transactions -/

/-- An event on a port unit alone. -/
theorem modPort_moves (s : State) (p : Port) (f : PortUnit → PortUnit) :
    s.modPort p f = { s with ports := (s.modPort p f).ports } ∧ (∀ q, q ≠ p → (s.modPort p f).port q = s.port q) ∧
      (s.modPort p f).port p = f (s.port p) :=
  ⟨rfl, fun _ hq => State.port_modPort_ne s f hq, State.port_modPort_self s p f⟩

theorem exec_modPort {f : PortUnit → PortUnit} (hs : s.resetN = .high) (e : exec i s = takeEvent s fun s => s.modPort p f) :
    ∃ t, exec i s = .next t ∧ t = { s with ports := t.ports } ∧ (∀ q, q ≠ p → t.port q = s.port q) ∧
      t.port p = f (s.port p) :=
  ⟨_, exec_event hs e, modPort_moves s p f⟩

/-- A rise of CS_N counts a frame that was being received (R164, R165). -/
theorem PortUnit.rise_lost {u : PortUnit} (h : (∃ c, u.rx = .length c) ∨ ∃ c n got, u.rx = .payload c n got) :
    u.rise = { selected := false, rx := .code, sent := none, frameErrors := min (u.frameErrors + 1) 65535 } := by
  obtain ⟨c, h⟩ | ⟨c, n, got, h⟩ := h <;> simp [PortUnit.rise, h, PortUnit.deselect, PortUnit.countError, bump, bumpBy]

theorem PortUnit.rise_idle {u : PortUnit} (h : ¬((∃ c, u.rx = .length c) ∨ ∃ c n got, u.rx = .payload c n got)) :
    u.rise = { selected := false, rx := .code, sent := none, frameErrors := u.frameErrors } := by
  unfold PortUnit.rise
  split
  next c hc => exact absurd (.inl ⟨c, hc⟩) h
  next c n got hc => exact absurd (.inr ⟨c, n, got, hc⟩) h
  · rfl
  · rfl
  · rfl

end Sys2Proof.Machine

open Sys2Proof Sys2Proof.Machine

/-- Settles O1: by the definition of a step. -/
theorem stepTakesTheFrontCommand : Obligations.StepTakesTheFrontCommand :=
  ⟨fun _ _ _ => rfl, fun s h => by unfold step; rw [h]⟩

/-- Settles O2: every command is one effect and a change of the port units. -/
theorem everyCommandAnswersANextState : Obligations.EveryCommandAnswersANextState := by
  intro i s
  obtain ⟨t, taken⟩ := exec_next i s
  obtain ⟨u, effect, same, -⟩ := (exec_steps taken).effect
  exact ⟨t, taken, by rw [same]; exact effect.keepsPending⟩

/-- Settles O3: a port's rights are those of R166. -/
theorem portsKeepToTheirRights : Obligations.PortsKeepToTheirRights := by
  intro i p q s hi hs c unlisted
  have forbidden : permitted p q = false := by
    rw [← Bool.not_eq_true, permitted_iff]
    exact unlisted
  exact ⟨_, exec_forbidden hi hs forbidden, reply_onlyAnswers ..⟩

/-- Settles O13: the edge by gate mode and latch. -/
theorem runEdgeMovesTheGate : Obligations.RunEdgeMovesTheGate := by
  intro s l v
  refine ⟨fun same => congrArg Host.Outcome.next (if_pos same), fun edge => ⟨_, runEdge_taken edge, rfl,
    fun k hk => State.clock_modClock_ne s _ hk, ?_⟩⟩
  rw [State.clock_modClock_self]
  exact ⟨LineClock.edge_rest _ v, fun h => LineClock.edge_follow h v, fun h => LineClock.edge_fixed h v,
    fun h spent => LineClock.edge_spent h spent v, fun h armed => LineClock.edge_startOnce h armed v,
    fun h armed => LineClock.edge_stopOnce h armed v⟩

/-- Settles O20: each control by its range test. -/
theorem routeFlagsAreWrittenAlone : Obligations.RouteFlagsAreWrittenAlone := by
  intro s hs
  refine ⟨fun p n sender => ?_, fun cold n => ?_, fun r => ?_, fun r on => ?_, fun n hn on => ⟨?_, ?_⟩⟩
  · have awake : ¬(p = .sp ∧ s.mode = .cold) := by
      obtain rfl | ⟨-, awake⟩ := sender
      · exact fun h => nomatch h.1
      · exact fun h => awake h.2
    have may : permitted p .ackLate = true := by obtain rfl | ⟨rfl, -⟩ := sender <;> decide
    exact ⟨fun r hr => by subst hr; exact exec_modRoute (i := .ackLate p r.val) hs rfl may (ackLate_ok awake r),
      fun hn => exec_onlyAnswers hs rfl may (ackLate_badArg awake hn)⟩
  · exact exec_onlyAnswers hs rfl (by decide) (if_pos ⟨rfl, cold⟩)
  · exact exec_modRoute (i := .presetLate .ep r.val) hs rfl (by decide) (presetLate_ok r)
  · exact exec_modRoute (i := .setHold .ep r.val on) hs rfl (by decide) (setHold_ok r on)
  · exact exec_onlyAnswers hs rfl (by decide) (presetLate_badArg hn)
  · exact exec_onlyAnswers hs rfl (by decide) (setHold_badArg hn on)

/-- Settles O21: each command changes the one port unit. -/
theorem transactionsStartAndEnd : Obligations.TransactionsStartAndEnd := by
  intro s p hs
  refine ⟨?_, fun selected => ?_, fun unselected => ?_,
    ?_, fun n => ?_⟩
  · exact exec_modPort (i := .csNFall p) hs rfl
  · obtain ⟨rest, others, own⟩ := modPort_moves s p PortUnit.rise
    have risen : exec (.transactionEnd p) s = .next (s.modPort p PortUnit.rise) :=
      (exec_event hs rfl).trans (congrArg Host.Outcome.next (if_pos selected))
    exact ⟨_, risen, rest, others, fun lost => own.trans (PortUnit.rise_lost lost), fun idle => own.trans (PortUnit.rise_idle idle)⟩
  · exact (exec_event hs rfl).trans (congrArg Host.Outcome.next (if_neg (by simp [unselected])))
  · exact exec_modPort (i := .frameDiscard p .chipSelect) hs rfl
  · exact exec_modPort (i := .frameDiscard p (.overlong n)) hs rfl
end

section
/-!
PROOFS: the clocks and the route timer. A decisecond settles what is due, ticks the clocks and counts the routes; a route event comes
to the same taken by its command or settled; a departure point judges the live manifests one after another.
-/

namespace Sys2Proof.Machine

open Sys2Proof

/-! ## A decisecond -/

theorem exec_decisecond {s : State} (hs : s.resetN = .high) (active : s.mode = .active) :
    exec .decisecondEnd s = .next s.settleRoutes.tickClocks.countRoutes := by
  rw [exec_event hs rfl, State.decisecond, if_pos active]

/-- The clocks after a tick (R75, R76). -/
theorem State.tickClocks_clock (s : State) (l : Line) :
    s.tickClocks.clock l =
      { s.clock l with time := if (s.clock l).isOpen then (s.clock l).time + 1 else (s.clock l).time } := by
  cases l <;> rfl

/-- A tick leaves every gate, so the routes count by the gates as they stood (R76). -/
theorem State.tickClocks_ticks (s : State) (c : ClockSource) : s.tickClocks.ticks c = s.ticks c := by
  cases c with
  | plant => rfl
  | line l => cases l <;> rfl

theorem State.ticks_iff (s : State) (c : ClockSource) :
    s.ticks c = true ↔ c = .plant ∨ ∃ l, c = .line l ∧ (s.clock l).isOpen = true := by
  cases c with
  | plant => simp [State.ticks]
  | line l => simp [State.ticks]

/-- Each route after the clocks ticked and the routes counted. -/
theorem State.counted_route (s : State) (r : RouteId) :
    s.tickClocks.countRoutes.route r = if s.ticks (s.route r).cfg.timing.source then (s.route r).count else s.route r := by
  rw [countRoutes_route, tickClocks_ticks]
  rfl

/-- Which point a value of C below P is (R85, R86, R89). -/
theorem RouteTiming.eventAt_iff {t : RouteTiming} {c : Nat} (hc : c < t.period) :
    (t.eventAt c = some .skipped ↔ t.buildAt = c ∧ t.departAt = c) ∧
      (t.eventAt c = some .build ↔ t.buildAt = c ∧ t.departAt ≠ c) ∧
      (t.eventAt c = some .departure ↔ t.departAt = c ∧ t.buildAt ≠ c) ∧ t.eventAt c ≠ some .wrap := by
  unfold RouteTiming.eventAt
  by_cases both : t.buildAt = t.departAt
  · rw [if_pos both]
    by_cases here : c = t.buildAt
    · simp [← here, ← both, hc]
    · simp [← both, here, Ne.symm here]
  · rw [if_neg both]
    by_cases here : c = t.buildAt
    · simp [← here, hc]; omega
    · by_cases there : c = t.departAt
      · simp [← there, hc, here, Ne.symm here]
      · simp [here, there, Ne.symm here, Ne.symm there]

/-! ## Events due -/

/-- With one route's events due alone, settling takes that route's. -/
theorem State.settleRoutes_one {s : State} {r : RouteId} (quiet : ∀ k, k ≠ r → (s.route k).due = none) :
    s.settleRoutes = s.settleRoute r := by
  have idle : ∀ (rs : List RouteId) (t : State), (∀ k ∈ rs, (t.route k).due = none) → rs.foldl State.settleRoute t = t := by
    intro rs
    induction rs with
    | nil => intro _ _; rfl
    | cons k rs ih =>
      intro t ht
      have : t.settleRoute k = t := by simp [settleRoute, takeDue, ht k List.mem_cons_self]
      rw [List.foldl_cons, this, ih t fun j hj => ht j (List.mem_cons_of_mem _ hj)]
  have taken : ∀ rs : List RouteId, rs.Nodup → r ∈ rs → rs.foldl State.settleRoute s = s.settleRoute r := by
    intro rs
    induction rs with
    | nil => intro _ h; cases h
    | cons k rs ih =>
      intro nodup hr
      obtain ⟨hk, nodup⟩ := List.nodup_cons.mp nodup
      rw [List.foldl_cons]
      by_cases e : k = r
      · subst e
        refine idle rs _ fun j hj => ?_
        have hj' : j ≠ k := fun e => hk (e ▸ hj)
        rw [(settleRoute_moves s k).others j hj']
        exact quiet j hj'
      · have : s.settleRoute k = s := by simp [settleRoute, takeDue, quiet k e]
        rw [this]
        exact ih nodup ((List.mem_cons.mp hr).resolve_left (Ne.symm e))
  exact taken routeIds routeIds_nodup (mem_routeIds r)

/-- A route whose event is taken, and then settled, comes to what settling alone gives. -/
theorem State.settleRoutes_takeDue {s : State} {r : RouteId} (quiet : ∀ k, k ≠ r → (s.route k).due = none) :
    (s.takeDue r).settleRoutes = s.settleRoutes := by
  have after : ∀ k, k ≠ r → ((s.takeDue r).route k).due = none := fun k hk => by
    rw [(takeDue_moves s r).others k hk]; exact quiet k hk
  have spent : (s.settleRoute r).takeDue r = s.settleRoute r := by
    have := s.settleRoute_due r
    generalize s.settleRoute r = t at this ⊢
    rw [takeDue, this]
  rw [settleRoutes_one after, settleRoutes_one quiet]
  exact spent

/-- The commands of a route's events are the taking of its due event, where it is that one. -/
theorem exec_routeEvent {s : State} {r : RouteId} (hs : s.resetN = .high) {c : Instr}
    (hc : c = .buildPoint r ∨ c = .departurePoint r ∨ c = .skippedPoint r ∨ c = .wrap r) :
    exec c s = .next s ∨ exec c s = .next (s.takeDue r) := by
  have key (e : RouteEvent) (k : State → RouteId → State) (hk : (s.route r).due = some e → k s r = s.takeDue r) :
      s.whenDue r e k = s ∨ s.whenDue r e k = s.takeDue r := by
    unfold State.whenDue
    split
    next h => exact .inr (hk h)
    · exact .inl rfl
  have next {e : RouteEvent} {k : State → RouteId → State} (hk : (s.route r).due = some e → k s r = s.takeDue r)
      (taken : exec c s = .next (s.whenDue r e k)) : exec c s = .next s ∨ exec c s = .next (s.takeDue r) := by
    rw [taken]
    exact (key e k hk).imp (congrArg _) (congrArg _)
  obtain rfl | rfl | rfl | rfl := hc
  · exact next (fun h => by rw [State.takeDue, h]) (exec_event hs rfl)
  · exact next (fun h => by rw [State.takeDue, h]) (exec_event hs rfl)
  · exact next (fun h => by rw [State.takeDue, h]) (exec_event hs rfl)
  · exact next (fun h => by rw [State.takeDue, h]) (exec_event hs rfl)

theorem exec_notDue {s : State} {r : RouteId} {e : RouteEvent} {c : Instr} {k : State → RouteId → State} (hs : s.resetN = .high)
    (hc : exec c s = takeEvent s fun s => s.whenDue r e k) (h : (s.route r).due ≠ some e) : exec c s = .next s := by
  rw [exec_event hs hc, State.whenDue, if_neg h]

theorem exec_due {s : State} {r : RouteId} {e : RouteEvent} {c : Instr} {k : State → RouteId → State} (hs : s.resetN = .high)
    (hc : exec c s = takeEvent s fun s => s.whenDue r e k) (h : (s.route r).due = some e) : exec c s = .next (k s r) := by
  rw [exec_event hs hc, State.whenDue, if_pos h]

/-- All that a wrap does to its route (R84). -/
theorem Route.wrapped_eq (x : Route) :
    x.wrapped = { x with
      cfg := { x.cfg with timing := x.next.getD x.cfg.timing }, next := none, c := 0, lap := x.lap + 1
      due := if (x.next.getD x.cfg.timing).enabled then (x.next.getD x.cfg.timing).eventAt 0 else none } := by
  cases h : x.next with
  | none => rw [wrapped_none h]; simp [h]
  | some t => simp [Route.wrapped, h, Route.takeUp]

/-! ## A departure point -/

/-- The departure points seen after one more (R86). -/
def Buffer.seenNext (b : Buffer) : Nat := min (b.seen + 1) 2

/-- A manifest that has not departed at its first departure point (R90). -/
def Buffer.missedPoint (b : Buffer) : Bool := decide (b.state ≠ .onRoute ∧ b.seenNext = 1)

/-- A manifest under way at its second, not reported yet (R87). -/
def Buffer.ranOver (b : Buffer) : Bool := decide (b.state = .onRoute ∧ b.seenNext = 2 ∧ b.overdue = false)

/-- A manifest after its departure point was judged. -/
def Buffer.judged (b : Buffer) : Buffer := { b with seen := b.seenNext, overdue := b.overdue || b.ranOver }

/-- The manifest for which a route goes late, of several live ones (R90). -/
def State.goesLateFor (s : State) (r : RouteId) (hs : List Half) : Option Half :=
  if (s.route r).late then none else hs.find? fun h => (s.buffer r h).missedPoint

/-- The notice a manifest's judgement raises, if any. -/
def State.departureNotice (s : State) (r : RouteId) (late : Option Half) (h : Half) : Option Event :=
  if late = some h then some (.late r (s.buffer r h).lap (s.buffer r h).state)
  else if (s.buffer r h).ranOver then some (.overdue r (s.buffer r h).lap (s.route r).pointer) else none

/-- From s to t the manifests of a list, each once, were judged at a departure point. -/
structure Judges (r : RouteId) (hs : List Half) (s t : State) : Prop where
  plant : t.plant = s.plant
  queues : t.queues = ((hs.filterMap (s.departureNotice r (s.goesLateFor r hs))).foldl State.raise s).queues
  route : t.route r = { s.route r with
    buffers := (t.route r).buffers
    late := (s.route r).late || (s.goesLateFor r hs).isSome
    lateCount := if (s.goesLateFor r hs).isSome then min ((s.route r).lateCount + 1) 65535 else (s.route r).lateCount
    overdueCount := if hs.countP (fun h => (s.buffer r h).ranOver) = 0 then (s.route r).overdueCount
      else min ((s.route r).overdueCount + hs.countP fun h => (s.buffer r h).ranOver) 65535 }
  judged : ∀ h ∈ hs, t.buffer r h = (s.buffer r h).judged
  others : ∀ h, h ∉ hs → t.buffer r h = s.buffer r h

theorem Buffer.ranOver_missedPoint {b : Buffer} (h : b.missedPoint = true) : b.ranOver = false := by
  simp only [missedPoint, decide_eq_true_eq] at h
  simp [ranOver, h.1]

/-- A judgement by its outcome (R86, R87, R90). -/
theorem judgeDeparture_eq (r : RouteId) (s : State) (h : Half) :
    let s1 := s.modBuffer r h fun b => { b with seen := b.seenNext }
    State.judgeDeparture r s h =
      if (s.buffer r h).missedPoint then s1.goLate r (s1.buffer r h)
      else if (s.buffer r h).ranOver then s1.goOverdue r h else s1 := by
  intro s1
  have counted : s1.buffer r h = { s.buffer r h with seen := (s.buffer r h).seenNext } := by simp [s1]
  have e : State.judgeDeparture r s h = if (s1.buffer r h).state = .onRoute then
      if (s1.buffer r h).seen = 2 ∧ (s1.buffer r h).overdue = false then s1.goOverdue r h else s1
    else if (s1.buffer r h).seen = 1 then s1.goLate r (s1.buffer r h) else s1 := rfl
  rw [e, counted]
  by_cases away : (s.buffer r h).state = .onRoute
  · simp [Buffer.missedPoint, Buffer.ranOver, away]
  · simp [Buffer.missedPoint, Buffer.ranOver, away]

/-- A change of a route beside its buffers leaves them. -/
theorem State.modRoute_keepsBuffers (s : State) (r : RouteId) {g : Route → Route} (hg : (g (s.route r)).buffers = (s.route r).buffers)
    (k : Half) : (s.modRoute r g).buffer r k = s.buffer r k := by
  unfold State.buffer; rw [route_modRoute_self, hg]

theorem State.goesLateFor_nil (s : State) (r : RouteId) : s.goesLateFor r [] = none := by
  unfold goesLateFor; split <;> rfl

/-- Judging no manifest. -/
theorem Judges.nil (r : RouteId) (s : State) : Judges r [] s s where
  plant := rfl
  queues := rfl
  route := by simp [State.goesLateFor_nil]
  judged h hh := by cases hh
  others _ _ := rfl

/-- Judging one manifest (R86, R87, R90). -/
theorem judgeDeparture_judges (r : RouteId) (s : State) (h : Half) : Judges r [h] s (State.judgeDeparture r s h) := by
  rw [judgeDeparture_eq]
  have counted : (s.modBuffer r h fun b => { b with seen := b.seenNext }).route r =
      { s.route r with buffers := (s.route r).buffers.modify h fun b => { b with seen := b.seenNext } } := by simp [State.modBuffer]
  have own : (s.modBuffer r h fun b => { b with seen := b.seenNext }).buffer r h =
      { s.buffer r h with seen := (s.buffer r h).seenNext } := State.buffer_modBuffer_self ..
  have other : ∀ k, k ∉ [h] → (s.modBuffer r h fun b => { b with seen := b.seenNext }).buffer r k = s.buffer r k := fun k hk =>
    State.buffer_modBuffer_ne s r _ (by simpa using hk)
  split
  next missed =>
    have ranOver := Buffer.ranOver_missedPoint missed
    unfold State.goLate
    rw [counted]
    cases late : (s.route r).late with
    | true =>
      rw [if_pos rfl]
      exact ⟨rfl, by simp [State.goesLateFor, State.departureNotice, late, ranOver],
        by rw [counted]; simp [State.goesLateFor, late, ranOver], by simp [own, Buffer.judged, ranOver], other⟩
    | false =>
      rw [if_neg (by simp)]
      refine ⟨rfl, ?_, ?_, ?_, fun k hk => ?_⟩
      · simp [State.goesLateFor, State.departureNotice, late, missed, own]; rfl
      · simp [State.goesLateFor, late, missed, ranOver, counted, bump, bumpBy]
      · intro k hk
        obtain rfl := List.mem_singleton.mp hk
        rw [State.raise_buffer]
        refine (State.modRoute_keepsBuffers _ r rfl k).trans ?_
        simp [own, Buffer.judged, ranOver]
      · rw [State.raise_buffer]
        exact (State.modRoute_keepsBuffers _ r rfl k).trans (other k hk)
  next missed =>
    split
    next ranOver =>
      unfold State.goOverdue
      refine ⟨rfl, ?_, ?_, ?_, fun k hk => ?_⟩
      · simp [State.goesLateFor, State.departureNotice, missed, ranOver, own, counted]; rfl
      · simp [State.goesLateFor, missed, ranOver, bump, bumpBy, State.modBuffer]
      · intro k hk
        obtain rfl := List.mem_singleton.mp hk
        rw [State.raise_buffer]
        refine (State.modRoute_keepsBuffers _ r rfl k).trans ?_
        rw [State.buffer_modBuffer_self, own]
        simp [Buffer.judged, ranOver]
      · rw [State.raise_buffer]
        refine (State.modRoute_keepsBuffers _ r rfl k).trans ?_
        rw [State.buffer_modBuffer_ne _ _ _ (by simpa using hk)]
        exact other k hk
    next ranOver =>
      exact ⟨rfl, by simp [State.goesLateFor, State.departureNotice, missed, ranOver],
        by rw [counted]; simp [State.goesLateFor, missed, ranOver], by simp [own, Buffer.judged, ranOver], other⟩

theorem State.goesLateFor_mem {s : State} {r : RouteId} {hs : List Half} {k : Half} (h : s.goesLateFor r hs = some k) : k ∈ hs := by
  unfold goesLateFor at h
  split at h
  · cases h
  · exact List.mem_of_find?_eq_some h

theorem find?_congr {α : Type} {p q : α → Bool} : ∀ {xs : List α}, (∀ x ∈ xs, p x = q x) → xs.find? p = xs.find? q
  | [], _ => rfl
  | x :: xs, h => by
    rw [List.find?_cons, List.find?_cons, h x List.mem_cons_self, find?_congr fun y hy => h y (List.mem_cons_of_mem _ hy)]

section

variable {r : RouteId} {h : Half} {hs : List Half} {s t u : State}

theorem Judges.same (first : Judges r [h] s t) (new : h ∉ hs) {k : Half} (hk : k ∈ hs) : t.buffer r k = s.buffer r k :=
  first.others k fun e => new (List.mem_singleton.mp e ▸ hk)

/-- The route goes late once: for the first manifest, or else for one of the others. -/
theorem Judges.goesLate (first : Judges r [h] s t) (new : h ∉ hs) :
    s.goesLateFor r (h :: hs) = (s.goesLateFor r [h]).or (t.goesLateFor r hs) ∧
      ((s.goesLateFor r [h]).isSome → t.goesLateFor r hs = none) := by
  have late : (t.route r).late = ((s.route r).late || (s.goesLateFor r [h]).isSome) := by rw [first.route]
  have others : hs.find? (fun k => (t.buffer r k).missedPoint) = hs.find? fun k => (s.buffer r k).missedPoint :=
    find?_congr fun k hk => by rw [first.same new hk]
  unfold State.goesLateFor at late ⊢
  rw [others, late]
  cases (s.route r).late with
  | true => simp
  | false => cases missed : (s.buffer r h).missedPoint <;> simp [missed]

/-- Judging one manifest and then others. -/
theorem Judges.cons (first : Judges r [h] s t) (rest : Judges r hs t u) (new : h ∉ hs) : Judges r (h :: hs) s u := by
  obtain ⟨goesLate, once⟩ := first.goesLate new
  have pointer : (t.route r).pointer = (s.route r).pointer := by rw [first.route]
  have head : s.departureNotice r (s.goesLateFor r (h :: hs)) h = s.departureNotice r (s.goesLateFor r [h]) h := by
    unfold State.departureNotice
    rw [goesLate]
    cases e : s.goesLateFor r [h] with
    | some k => rfl
    | none =>
      have hnone : (none : Option Half) ≠ some h := by simp
      rw [Option.none_or, if_neg fun e => new (State.goesLateFor_mem e), if_neg hnone]
  have tail : ∀ k ∈ hs, s.departureNotice r (s.goesLateFor r (h :: hs)) k = t.departureNotice r (t.goesLateFor r hs) k := by
    intro k hk
    unfold State.departureNotice
    rw [goesLate, first.same new hk, pointer]
    cases e : s.goesLateFor r [h] with
    | none => rfl
    | some j =>
      obtain rfl := List.mem_singleton.mp (State.goesLateFor_mem e)
      have hne : j ≠ k := fun e => new (e ▸ hk)
      have hnone : (none : Option Half) ≠ some k := by simp
      rw [once (by simp [e]), Option.or_none, if_neg (by simpa using hne), if_neg hnone]
  have notices : (h :: hs).filterMap (s.departureNotice r (s.goesLateFor r (h :: hs))) =
      [h].filterMap (s.departureNotice r (s.goesLateFor r [h])) ++ hs.filterMap (t.departureNotice r (t.goesLateFor r hs)) := by
    rw [List.filterMap_cons, head, List.filterMap_congr tail, List.filterMap_cons, List.filterMap_nil]
    split <;> rfl
  have overran : hs.countP (fun k => (t.buffer r k).ranOver) = hs.countP fun k => (s.buffer r k).ranOver :=
    List.countP_congr fun k hk => by rw [first.same new hk]
  exact {
    plant := rest.plant.trans first.plant
    queues := by
      rw [rest.queues, notices, List.foldl_append]
      exact State.foldl_raise_queues_congr first.queues (by rw [first.plant, State.foldl_raise_rest]) _
    route := by
      rw [rest.route, first.route, overran, goesLate, List.countP_cons, List.countP_cons, List.countP_nil]
      have overdue : ∀ a b c : Nat, (if b = 0 then if 0 + c = 0 then a else min (a + (0 + c)) 65535
          else min ((if 0 + c = 0 then a else min (a + (0 + c)) 65535) + b) 65535) =
          if b + c = 0 then a else min (a + (b + c)) 65535 := fun a b c => by
        split <;> split <;> split <;> omega
      simp only [overdue]
      cases e : s.goesLateFor r [h] with
      | none => cases t.goesLateFor r hs <;> simp
      | some j => simp [once (by simp [e])]
    judged := by
      intro k hk
      obtain rfl | hk := List.mem_cons.mp hk
      · rw [rest.others k new]; exact first.judged k List.mem_cons_self
      · rw [rest.judged k hk, first.same new hk]
    others := fun k hk => by
      rw [rest.others k (List.not_mem_of_not_mem_cons hk), first.others k (by simpa using List.ne_of_not_mem_cons hk)] }

/-- Judging manifests moves the routes and the notices alone. -/
theorem judgeDeparture_rest (r : RouteId) (s : State) (h : Half) :
    State.judgeDeparture r s h =
      { s with routes := (State.judgeDeparture r s h).routes, queues := (State.judgeDeparture r s h).queues } := by
  rw [judgeDeparture_eq]
  unfold State.goLate State.goOverdue
  split
  · split <;> rfl
  · split <;> rfl

theorem foldl_judgeDeparture_rest (r : RouteId) : ∀ (hs : List Half) (s : State),
    hs.foldl (State.judgeDeparture r) s = { s with
      routes := (hs.foldl (State.judgeDeparture r) s).routes, queues := (hs.foldl (State.judgeDeparture r) s).queues }
  | [], _ => rfl
  | h :: hs, s => by
    rw [List.foldl_cons, foldl_judgeDeparture_rest r hs, judgeDeparture_rest]

theorem departed_rest {r : RouteId} {f : Route → Route} {t : State} (h : t = { s with routes := t.routes, queues := t.queues }) :
    t.modRoute r f = { s with routes := (t.modRoute r f).routes, queues := (t.modRoute r f).queues } := by rw [h]; rfl

/-- Judging a list of manifests, each once. -/
theorem foldl_judgeDeparture (r : RouteId) : ∀ (hs : List Half) (s : State), hs.Nodup →
    Judges r hs s (hs.foldl (State.judgeDeparture r) s)
  | [], s, _ => .nil r s
  | h :: hs, s, nodup => (judgeDeparture_judges r s h).cons (foldl_judgeDeparture r hs _ (List.nodup_cons.mp nodup).2)
      (List.nodup_cons.mp nodup).1

end

end Sys2Proof.Machine

open Sys2Proof Sys2Proof.Machine

/-- Settles O15: settling and counting leave the clocks, the tick moves them. -/
theorem decisecondAdvancesTheClocks : Obligations.DecisecondAdvancesTheClocks := by
  intro s hs
  refine ⟨fun idle => by rw [exec_event hs rfl, State.decisecond, if_neg idle], fun active => ⟨_, exec_decisecond hs active, ?_⟩⟩
  have same := s.settleRoutes_rest
  generalize s.settleRoutes = t at same ⊢
  have clock : ∀ l, t.clock l = s.clock l := fun l => by rw [same]; rfl
  have plant : t.plant = s.plant := by rw [same]
  refine ⟨congrArg (· + 1) plant, fun l => ?_, by rw [same]; rfl⟩
  rw [← clock l]
  exact t.tickClocks_clock l

/-- Settles O16: with nothing due, a decisecond is the tick and the count. -/
theorem decisecondCountsTheRoutes : Obligations.DecisecondCountsTheRoutes := by
  intro s hs active quiet
  refine ⟨_, exec_decisecond hs active, by rw [State.settleRoutes_quiet quiet]; rfl, fun r => ?_⟩
  rw [State.settleRoutes_quiet quiet, State.counted_route]
  dsimp only
  refine ⟨fun enabled ticks more => ?_, fun enabled ticks done => ?_, fun idle => ?_⟩
  · rw [if_pos ((State.ticks_iff ..).mpr ticks)]
    obtain ⟨off, -⟩ | ⟨-, -, e⟩ | ⟨-, done, -⟩ := (s.route r).count_cases
    · rw [enabled] at off; cases off
    · rw [e]; exact ⟨rfl, RouteTiming.eventAt_iff more⟩
    · omega
  · rw [if_pos ((State.ticks_iff ..).mpr ticks)]
    obtain ⟨off, -⟩ | ⟨-, more, -⟩ | ⟨-, -, e⟩ := (s.route r).count_cases
    · rw [enabled] at off; cases off
    · omega
    · exact e
  · split
    next ticks =>
      obtain off | still := idle
      · obtain ⟨-, e⟩ | ⟨on, -⟩ | ⟨on, -⟩ := (s.route r).count_cases
        · exact e
        · rw [off] at on; cases on
        · rw [off] at on; cases on
      · exact absurd ((State.ticks_iff ..).mp ticks) still
    · rfl

/-- Settles O17: an event's command takes what is due, which settling would take. -/
theorem routeEventsAreTakenWhenDue : Obligations.RouteEventsAreTakenWhenDue := by
  intro s r hs
  refine ⟨exec_notDue hs rfl, exec_notDue hs rfl, exec_notDue hs rfl, exec_notDue hs rfl, fun active quiet c hc => ?_⟩
  obtain taken | taken := exec_routeEvent hs hc
  · exact ⟨s, taken, rfl⟩
  · have moves := takeDue_moves s r
    have mode : (s.takeDue r).mode = .active := by rw [moves.rest]; exact active
    have reset : (s.takeDue r).resetN = .high := by rw [moves.rest]; exact hs
    exact ⟨_, taken, by rw [exec_decisecond reset mode, exec_decisecond hs active, State.settleRoutes_takeDue quiet]⟩

/-- Settles O18: the wrap and the skipped point of one route. -/
theorem wrapAndSkippedPointMoveOneRoute : Obligations.WrapAndSkippedPointMoveOneRoute := by
  intro s r hs
  refine ⟨fun due => ⟨_, exec_due hs rfl due, rfl, fun k hk => State.route_modRoute_ne s _ hk, ?_⟩,
    fun due => ⟨_, exec_due hs rfl due, rfl, fun k hk => State.route_modRoute_ne s _ hk, State.route_modRoute_self ..⟩⟩
  intro x g
  have own : (s.wrapPoint r).route r = x.wrapped := State.route_modRoute_self ..
  rw [own, Route.wrapped_eq]
  refine ⟨rfl, fun off => if_neg (by rw [off]; decide), fun enabled some => ?_⟩
  dsimp only
  rw [if_pos enabled]
  exact RouteTiming.eventAt_iff some

/-- Settles O25: the queue after a notice, and the table of 10.5 by kinds. -/
theorem noticesGoToTheirPorts : Obligations.NoticesGoToTheirPorts := by
  refine ⟨fun s e => ⟨rfl, s.raise_queue e⟩, fun e p => ?_⟩
  cases e <;> cases p <;> simp [Event.routedTo, Event.urgent, Event.code]

/-- Settles O19: the manifests judged one after another, oldest first. -/
theorem departurePointJudgesTheManifest : Obligations.DeparturePointJudgesTheManifest := by
  intro s r hs due x live seen missed ranOver goesLate told
  have moves := departurePoint_moves s r
  have liveHalves : live = x.liveHalves := List.filter_congr fun h _ => by
    rw [Bool.eq_iff_iff, decide_eq_true_eq]; exact (Buffer.live_iff _).symm
  have judges : Judges r live s (live.foldl (State.judgeDeparture r) s) :=
    foldl_judgeDeparture r live s (liveHalves ▸ x.liveHalves_nodup)
  have same : s.departurePoint r = (live.foldl (State.judgeDeparture r) s).modRoute r fun x => { x with due := none } := by
    rw [liveHalves]; rfl
  refine ⟨_, exec_due hs rfl due, ?_, moves.others, ?_, ?_, fun h => ?_⟩
  · rw [same]
    exact departed_rest (foldl_judgeDeparture_rest r live s)
  · rw [same]; exact judges.queues
  · rw [same, State.route_modRoute_self, judges.route]; rfl
  · rw [same, State.modRoute_keepsBuffers _ r rfl]
    split
    next free => exact judges.others h fun mem => of_decide_eq_true (List.mem_filter.mp mem).2 free
    next busy => exact judges.judged h (liveHalves ▸ (x.mem_liveHalves h).mpr ((Buffer.live_iff _).mpr busy))
end

section
/-!
PROOFS: the port units. A received byte moves the port's receive state or completes a frame; a complete frame is its request's command
where its payload spells one, and is only answered otherwise; the bytes of a response and of a notice record.
-/

namespace Sys2Proof.Machine

open Sys2Proof

variable {s : State} {p : Port} {q : Request}

/-! ## A received byte -/

theorem exec_byteReceived {b : Byte} (hs : s.resetN = .high) (selected : (s.port p).selected = true) :
    exec (.byteReceived p b) s = .next (s.receive p b) := by
  rw [exec_event hs rfl, if_pos selected]

/-- A byte that moves the port alone. -/
theorem exec_byteReceived_modPort {b : Byte} {f : PortUnit → PortUnit} {v : PortUnit} (hs : s.resetN = .high)
    (selected : (s.port p).selected = true) (h : s.receive p b = s.modPort p f) (own : f (s.port p) = v) :
    ∃ t, exec (.byteReceived p b) s = .next t ∧ t = { s with ports := t.ports } ∧ t.port p = v ∧
      ∀ k, k ≠ p → t.port k = s.port k := by
  obtain ⟨rest, others, changed⟩ := modPort_moves s p f
  exact ⟨_, (exec_byteReceived hs selected).trans (congrArg _ h), rest, changed.trans own, others⟩

/-- A declared length of 0 completes the frame. -/
theorem exec_lastLength {code : Byte} (hs : s.resetN = .high) (selected : (s.port p).selected = true)
    (rx : (s.port p).rx = .length code) : exec (.byteReceived p 0) s = .next (completeFrame p code [] s) := by
  rw [exec_byteReceived hs selected, State.receive, rx]
  rfl

/-- The last byte of a payload completes the frame. -/
theorem exec_lastByte {code b : Byte} {got : List Byte} (hs : s.resetN = .high) (selected : (s.port p).selected = true)
    (rx : (s.port p).rx = .payload code (got.length + 1) got) :
    exec (.byteReceived p b) s = .next (completeFrame p code (got ++ [b]) s) := by
  rw [exec_byteReceived hs selected, State.receive, rx]
  exact congrArg _ (if_neg (Nat.lt_irrefl _))

/-! ## A complete frame (R166) -/

theorem completeFrame_unknown {code : Byte} (h : requestOf? code = none) (w : List Byte) (s : State) :
    completeFrame p code w s = reply p .unknown .empty s := by unfold completeFrame; rw [h]

theorem completeFrame_forbidden (h : permitted p q = false) (w : List Byte) (s : State) :
    completeFrame p (requestCode q) w s = reply p .notPermitted .empty s := by
  unfold completeFrame; rw [requestOf_requestCode]; dsimp only; rw [if_neg (by simp [h])]

/-- A frame that the port may send with a payload of a wrong length. -/
theorem completeFrame_badLength {w : List Byte} (h : permitted p q = true)
    (wrong : w.length ≠ lengthOf q (payloadForm (commandOf p q w))) (s : State) :
    completeFrame p (requestCode q) w s = reply p .badArg .empty s := by
  unfold completeFrame
  rw [requestOf_requestCode]
  dsimp only
  rw [if_pos h, readFrame_eq, if_neg wrong]

/-- A frame whose payload has the right length is its request's command, with the port's rights. -/
theorem completeFrame_command {w : List Byte} (hs : s.resetN = .high)
    (right : w.length = lengthOf q (payloadForm (commandOf p q w))) :
    .next (completeFrame p (requestCode q) w s) = exec (commandOf p q w) s := by
  cases h : permitted p q with
  | true =>
    refine (completeFrame_request hs (requestOf_requestCode q) h ?_).symm
    rw [readFrame_eq, if_pos right]
  | false => rw [completeFrame_forbidden h, exec_forbidden (requestIn_commandOf p q w) hs h]

/-- The requests without fields. -/
def bareRequests : List Request := [.readStatus, .cancelApply, .start, .stop, .runReset, .readCounters]

theorem lengthOf_bare (h : q ∈ bareRequests) (form : PayloadForm) : lengthOf q form = 0 := by
  cases q <;> first | rfl | exact absurd h (by decide)

/-- A request without fields is one command, whatever the payload. -/
theorem commandOf_bare {i : Instr} (hi : requestIn? i = some (p, q)) (h : q ∈ bareRequests) (w : List Byte) :
    commandOf p q w = i := by
  cases i <;> simp only [requestIn?, Option.some.injEq, Prod.mk.injEq, reduceCtorEq] at hi <;> obtain ⟨rfl, rfl⟩ := hi <;>
    first | rfl | exact absurd h (by decide)

theorem payloadForm_writeSlot (p : Port) (slot : Nat) (f : SlotFields) :
    payloadForm (.stageSlot p slot (.write f)) = .write (if f.start = none then 0 else 1) := by
  cases h : f.start <;> simp [payloadForm, stageForm, h]

/-! ## The bytes of a response (10.5) -/

theorem Response.byteAt_eq (f : Response) (n : Nat) : f.byteAt n = f.bytes.getD n 0xFF := by
  cases n with
  | zero => rfl
  | succ n =>
    show (f.bytes.drop (n + 1)).head?.getD fill = _
    rw [List.head?_drop, List.getD_eq_getElem?_getD]
    rfl

theorem Body.payload_length (b : Body) : b.payload.length ≤ 250 := by
  unfold Body.payload
  split
  · exact Nat.zero_le _
  · exact List.length_take_le ..
  · exact List.length_take_le ..

/-- A number's two bytes, most significant first. -/
theorem bytes16_ofNat (b : Nat) : bytes16 (BitVec.ofNat 16 b) = [BitVec.ofNat 8 (b / 256), BitVec.ofNat 8 b] := by
  have high : (BitVec.ofNat 16 b).extractLsb' 8 8 = BitVec.ofNat 8 (b / 256) := by
    apply BitVec.eq_of_toNat_eq
    simp [BitVec.extractLsb'_toNat, Nat.shiftRight_eq_div_pow]
    omega
  have low : (BitVec.ofNat 16 b).extractLsb' 0 8 = BitVec.ofNat 8 b := by
    apply BitVec.eq_of_toNat_eq
    simp [BitVec.extractLsb'_toNat]
  rw [bytes16, high, low]

/-- A notice record's bytes by its fields. -/
theorem Notice.record_eq (n : Notice) : n.record =
    [n.event.code, n.event.subject, n.event.lapOrSeq.extractLsb' 8 8, n.event.lapOrSeq.extractLsb' 0 8,
      BitVec.ofNat 8 n.event.details.1, if n.event.urgent then 1 else 0, BitVec.ofNat 8 (n.event.details.2 / 256),
      BitVec.ofNat 8 n.event.details.2, n.time.extractLsb' 24 8, n.time.extractLsb' 16 8, n.time.extractLsb' 8 8,
      n.time.extractLsb' 0 8] := by
  unfold Notice.record
  rw [bytes16_ofNat]
  rfl

end Sys2Proof.Machine

open Sys2Proof Sys2Proof.Machine

/-- Settles O22: the receive state by the table of R164, the bytes by 10.5. -/
theorem bytesMoveTheReceiveState : Obligations.BytesMoveTheReceiveState := by
  refine ⟨fun s p b hs => ⟨fun idle => ?_, fun selected v table => ?_⟩, fun f => ?_, fun n => ?_⟩
  · rw [exec_event hs rfl, if_neg (by simp [idle])]
  · obtain ⟨rx, rfl⟩ | ⟨c, rx, low, high, rfl⟩ | ⟨⟨c, rx⟩, long, rfl⟩ | ⟨c, n, got, rx, more, rfl⟩ | ⟨f, n, rx, rfl⟩ | ⟨rx, rfl⟩ := table
    · exact exec_byteReceived_modPort hs selected (by rw [State.receive, rx]) rfl
    · refine exec_byteReceived_modPort (f := fun u => u.shift (.payload c b.toNat []) fill) hs selected ?_ rfl
      rw [State.receive, rx]
      dsimp only
      rw [if_neg (by rintro rfl; simp at low), if_pos high]
    · refine exec_byteReceived_modPort (f := fun u => u.countError.shift .discard fill) hs selected ?_ rfl
      rw [State.receive, rx]
      dsimp only
      rw [if_neg (by rintro rfl; simp at long), if_neg (by omega)]
    · refine exec_byteReceived_modPort (f := fun u => u.shift (.payload c n (got ++ [b])) fill) hs selected ?_ rfl
      rw [State.receive, rx]
      exact if_pos more
    · exact exec_byteReceived_modPort hs selected (by rw [State.receive, rx]) (by rw [Response.byteAt_eq]; rfl)
    · refine exec_byteReceived_modPort hs selected (by rw [State.receive, rx]) ?_
      rw [← rx]; rfl
  · refine ⟨f.body.payload, f.body.payload_length, ?_, fun empty => by rw [empty]; rfl, fun marker k items body => ?_⟩
    · unfold Response.bytes
      cases f.status <;> rfl
    · exact ⟨Config.noticesHeader marker k, by rw [body]; rfl⟩
  · intro manifest mode
    refine ⟨n.event.code, n.event.subject, if n.event.urgent then 1 else 0, n.event.lapOrSeq, n.event.details.1, n.event.details.2,
      n.record_eq, ?_⟩
    obtain ⟨e, time⟩ := n
    have state (st : BufferState) : manifest st st.detail := by cases st <;> simp [manifest, BufferState.detail]
    cases e
    case lapMissed r lap st => exact ⟨rfl, rfl, rfl, rfl, state st, rfl⟩
    case late r lap st => exact ⟨rfl, rfl, rfl, rfl, state st, rfl⟩
    case seqStarved i seq why => exact ⟨rfl, rfl, rfl, rfl, rfl, by cases why <;> rfl⟩
    case seqBreak l seq pulled orphans => exact ⟨rfl, by cases l <;> rfl, rfl, rfl, rfl, rfl⟩
    case queueFull i cause k => exact ⟨rfl, rfl, rfl, rfl, rfl, by cases cause <;> rfl⟩
    case discrepancy i kind policy =>
      exact ⟨rfl, rfl, rfl, rfl, by cases kind <;> rfl, by cases policy <;> rfl⟩
    case linesReturned r lap cause k => exact ⟨rfl, rfl, rfl, rfl, rfl, by cases cause <;> rfl⟩
    case planApplied line seq m k =>
      exact ⟨rfl, by rcases line with _ | _ | _ <;> rfl, rfl, rfl, rfl, by cases m <;> rfl⟩
    case modeChanged new old => exact ⟨rfl, rfl, rfl, rfl, by cases new <;> rfl, by cases old <;> rfl⟩
    all_goals exact ⟨rfl, rfl, rfl, rfl, rfl, rfl⟩

/-- Settles O23: the last byte completes the frame, which is its command or is answered. -/
theorem completeFrameIsItsRequest : Obligations.CompleteFrameIsItsRequest := by
  refine ⟨fun s p hs selected => ⟨fun i q hi hq rx => ?_, fun q got b hq hp rx => ?_, fun r a b c d e f rx => ?_,
    fun q hp => ⟨fun rx => ?_, fun got b rx => ?_⟩, fun code payload unlisted => ⟨?_, fun rx => ?_, fun got b rx => ?_⟩⟩,
    fun q hq => ⟨lengthOf q, fun p w => commandOf p q w, lengthOf_range hq, fun hq => by rw [hq]; rfl,
      fun p w => requestIn_commandOf p q w, fun s p hs selected hp => ⟨fun rx => ?_, fun got b rx => ?_⟩⟩⟩
  · have right : ([] : List Byte).length = lengthOf q (payloadForm (commandOf p q [])) := (lengthOf_bare hq _).symm
    rw [exec_lastLength hs selected rx, completeFrame_command hs right, commandOf_bare hi hq]
  · exact ⟨_, (exec_lastByte hs selected rx).trans (congrArg _ (completeFrame_badLength hp (by simp [lengthOf_bare hq]) s)),
      reply_onlyAnswers ..⟩
  · have label : commandOf p .drop [r, a, b, c, d, e, f] = .drop p r.toNat ⟨a ++ b ++ c ++ d, e ++ f⟩ := by
      rw [← number32_eq]; rfl
    rw [exec_lastByte (got := [r, a, b, c, d, e]) hs selected rx, ← label]
    exact completeFrame_command (q := .drop) hs rfl
  · exact ⟨_, (exec_lastLength hs selected rx).trans (congrArg _ (completeFrame_forbidden hp _ s)), reply_onlyAnswers ..⟩
  · exact ⟨_, (exec_lastByte hs selected rx).trans (congrArg _ (completeFrame_forbidden hp _ s)), reply_onlyAnswers ..⟩
  · have none := (requestOf_eq_none code).mpr unlisted
    exact ⟨_, (exec_event (i := .unknown p code payload) hs rfl).trans (congrArg _ (completeFrame_unknown none payload s)),
      reply_onlyAnswers ..⟩
  · exact (exec_lastLength hs selected rx).trans (exec_event (i := .unknown p code []) hs rfl).symm
  · exact (exec_lastByte hs selected rx).trans (exec_event (i := .unknown p code (got ++ [b])) hs rfl).symm
  · have wrong : ([] : List Byte).length ≠ lengthOf q (payloadForm (commandOf p q [])) := by
      have := (lengthOf_range hq (payloadForm (commandOf p q []))).1
      simp only [List.length_nil]; omega
    exact ⟨_, (exec_lastLength hs selected rx).trans (congrArg _ (completeFrame_badLength hp wrong s)), reply_onlyAnswers ..⟩
  · intro form
    have spelled : form = payloadForm (commandOf p q (got ++ [b])) := by
      dsimp only [form]
      cases commandOf p q (got ++ [b])
      case stageSlot slot op =>
        cases op with
        | read => rfl
        | write f => exact (payloadForm_writeSlot ..).symm
      case stageUsage op => cases op <;> rfl
      case stageRoute op => cases op <;> rfl
      case stageWindow op => cases op <;> rfl
      case stageGlobals op => cases op <;> rfl
      all_goals rfl
    rw [spelled]
    refine ⟨fun right => ?_, fun wrong => ⟨_, (exec_lastByte hs selected rx).trans (congrArg _
      (completeFrame_badLength hp (by simpa using wrong) s)), reply_onlyAnswers ..⟩⟩
    rw [exec_lastByte hs selected rx, completeFrame_command hs (by simpa using right)]
end

section
/-!
PROOFS: the manifest pool and the reads. Which manifest a route and a lap name, the reports of a manifest, and the search of an
arrival.
-/

namespace Sys2Proof.Machine

open Sys2Proof

/-! ## The pool (R97) -/

/-- Of two halves, one of them first, the first that a test passes. -/
theorem find?_halves (o : Half) (P : Half → Bool) (h : Half) :
    [o, o.other].find? P = some h ↔ P h = true ∧ (P h.other = true → o = h) := by
  cases o <;> cases h <;> cases lower : P .lower <;> cases upper : P .upper <;> simp [Half.other, lower, upper]

theorem find?_halves_none (o : Half) (P : Half → Bool) : [o, o.other].find? P = none ↔ ¬P .lower = true ∧ ¬P .upper = true := by
  cases o <;> simp [Half.other, and_comm]

variable {s : State} {r : RouteId}

/-- A search of the live manifests of a route, the older first. -/
theorem Route.find_liveHalves (x : Route) (p : Half → Bool) :
    x.liveHalves.find? p = [x.older, x.older.other].find? fun h => (x.buffers.get h).live && p h := by
  unfold liveHalves
  rw [List.find?_filter]
  congr 1
  funext h
  simp [Bool.decide_and]

theorem State.manifest_eq_some (s : State) (r : RouteId) (lap : Lap) (h : Half) : s.manifest r lap = some h ↔
    ((s.buffer r h).state ≠ .free ∧ (s.buffer r h).lap = lap) ∧
      ((s.buffer r h.other).state ≠ .free ∧ (s.buffer r h.other).lap = lap → (s.route r).older = h) := by
  unfold manifest
  rw [Route.find_liveHalves, find?_halves]
  simp only [Bool.and_eq_true, Buffer.live_iff, beq_iff_eq]
  rfl

theorem State.manifest_eq_none (s : State) (r : RouteId) (lap : Lap) : s.manifest r lap = none ↔
    ¬((s.buffer r .lower).state ≠ .free ∧ (s.buffer r .lower).lap = lap) ∧
      ¬((s.buffer r .upper).state ≠ .free ∧ (s.buffer r .upper).lap = lap) := by
  unfold manifest
  rw [Route.find_liveHalves, find?_halves_none]
  simp only [Bool.and_eq_true, Buffer.live_iff, beq_iff_eq]
  rfl

/-- A buffer in a state other than FREE is live in it. -/
theorem Buffer.live_and_state {st : BufferState} (hst : st ≠ .free) (b : Buffer) :
    (b.live && b.state == st) = true ↔ b.state = st := by
  simp only [Bool.and_eq_true, Buffer.live_iff, beq_iff_eq, and_iff_right_iff_imp]
  exact fun h => h ▸ hst

theorem State.manifestIn_eq_some (s : State) (r : RouteId) {st : BufferState} (hst : st ≠ .free) (h : Half) :
    s.manifestIn r st = some h ↔
      (s.buffer r h).state = st ∧ ((s.buffer r h.other).state = st → (s.route r).older = h) := by
  unfold manifestIn
  rw [Route.find_liveHalves, find?_halves]
  have key : ∀ k, (((s.route r).buffers.get k).live && (s.buffer r k).state == st) = true ↔ (s.buffer r k).state = st :=
    fun k => Buffer.live_and_state hst _
  rw [key, key]

/-! ## Reports (R116, R137, R138) -/

/-- A numbered list taken through a partial function, one number after another. -/
theorem numbered_filterMap {α β : Type} (g : Nat → α → Option β) (xs : List α) :
    (numbered xs).filterMap (fun e => g e.1 e.2) = (List.range xs.length).filterMap fun k => xs[k]?.bind (g k) := by
  induction xs using List.reverseRecOn with
  | nil => rfl
  | append_singleton xs x ih =>
    have last : numbered (xs ++ [x]) = numbered xs ++ [(xs.length, x)] := by
      unfold numbered
      rw [List.length_append, List.length_singleton, List.range_succ, List.zip_append (by simp)]
      rfl
    have front : (List.range xs.length).filterMap (fun k => (xs ++ [x])[k]?.bind (g k)) =
        (List.range xs.length).filterMap fun k => xs[k]?.bind (g k) :=
      List.filterMap_congr fun k hk => by rw [List.getElem?_append_left (List.mem_range.mp hk)]
    rw [last, List.filterMap_append, ih, List.length_append, List.length_singleton, List.range_succ, List.filterMap_append, front]
    simp [List.filterMap_cons]

/-- The open lines of a stop, each made into what is reported of it. -/
theorem openLines_map {β : Type} (f : Nat × ManifestLine → β) (lines : List ManifestLine) (stop : Nat) :
    (openLines lines stop).map f = (List.range lines.length).filterMap fun k =>
      lines[k]?.bind fun y => if y.openAt stop then some (f (k, y)) else none := by
  unfold openLines
  rw [← List.filterMap_eq_map, List.filterMap_filter]
  exact numbered_filterMap (fun k y => if y.openAt stop then some (f (k, y)) else none) lines

theorem openLines_length (lines : List ManifestLine) (stop : Nat) :
    (openLines lines stop).length = lines.countP fun y => y.openAt stop := by
  unfold openLines
  rw [← List.countP_eq_length_filter]
  conv_rhs => rw [← map_snd_numbered lines, List.countP_map]
  rfl

/-- READ_MANIFEST's report, field by field (R116). -/
theorem State.manifestReport_eq (s : State) (r : RouteId) (h : Half) (n : Nat) :
    s.manifestReport r h n = {
      number := if h = .lower then 2 * r.val else 2 * r.val + 1, route := r, lap := (s.buffer r h).lap
      builtAt := (s.buffer r h).builtAt, state := (s.buffer r h).state, seen := (s.buffer r h).seen
      overdue := (s.buffer r h).overdue, load := (s.buffer r h).load, lineCount := (s.buffer r h).lines.length
      hasStops := (s.buffer r h).stops != none, lines := page n (s.buffer r h).lines } := by
  unfold manifestReport
  dsimp only
  rw [bufferNumber_eq, isSome_eq_bne_none]

/-- A line of the pick list, field by field (R137). -/
theorem pickLine_eq (stops : List Byte) (e : Nat × ManifestLine) :
    pickLine stops e = {
      number := e.1, slot := e.2.slot, part := e.2.part, size := e.2.size, stop := e.2.stop, load := e.2.load.forPick
      stopId := stops[e.2.stop]?, planned := e.2.planned, held := e.2.held, state := e.2.state } := rfl

/-- READ_STOP_LINES's report, field by field (R138). -/
theorem State.stopLinesReport_eq (s : State) (r : RouteId) (h : Half) :
    s.stopLinesReport r h = {
      lap := (s.buffer r h).lap, pointer := (s.route r).pointer, isNext := (s.route r).current == none
      stop := (s.route r).current.getD (s.route r).pointer
      stopId := ((s.buffer r h).stops.getD [])[(s.route r).current.getD (s.route r).pointer]?
      openCount := (s.buffer r h).lines.countP fun y => y.openAt ((s.route r).current.getD (s.route r).pointer)
      lines := ((openLines (s.buffer r h).lines ((s.route r).current.getD (s.route r).pointer)).map stopLine).take 8 } := by
  unfold stopLinesReport
  dsimp only
  rw [openLines_length, ← List.map_take]
  congr 1
  cases (s.route r).current <;> rfl

variable {p : Port} {lap : Lap} {n : Nat} {h : Half}

theorem readManifest_ok (hn : n ≤ 31) (named : s.manifest r lap = some h) :
    readManifest p r.val lap n s = reply p .ok (.manifest (s.manifestReport r h n)) s := by
  unfold readManifest
  rw [routeOf_val]
  dsimp only
  rw [if_neg (by omega), named]

theorem readManifest_badArg {m : Nat} (h : 5 < n ∨ 31 < m) : readManifest p n lap m s = reply p .badArg .empty s := by
  unfold readManifest
  obtain ⟨r, rfl, hr⟩ | ⟨-, hr⟩ := routeOf_cases n
  · rw [hr]; dsimp only; rw [if_pos (by omega)]
  · rw [hr]

theorem readManifest_notFound (hn : n ≤ 31) (named : s.manifest r lap = none) :
    readManifest p r.val lap n s = reply p .notFound .empty s := by
  unfold readManifest
  rw [routeOf_val]
  dsimp only
  rw [if_neg (by omega), named]

theorem atManifest_found {k : RouteId → Half → State} (named : s.manifest r lap = some h) : atManifest p r.val lap s k = k r h := by
  unfold atManifest
  rw [routeOf_val]
  dsimp only
  rw [named]

theorem atManifest_badArg {k : RouteId → Half → State} (hn : 5 < n) : atManifest p n lap s k = reply p .badArg .empty s := by
  unfold atManifest; rw [routeOf_eq_none hn]

theorem atManifest_notFound {k : RouteId → Half → State} (named : s.manifest r lap = none) :
    atManifest p r.val lap s k = reply p .notFound .empty s := by
  unfold atManifest
  rw [routeOf_val]
  dsimp only
  rw [named]

theorem readStopLines_ok (train : s.manifestIn r .onRoute = some h) :
    readStopLines p r.val s = reply p .ok (.stopLines (s.stopLinesReport r h)) s := by
  unfold readStopLines
  rw [routeOf_val]
  dsimp only
  rw [train]

theorem readStopLines_wrongState (train : s.manifestIn r .onRoute = none) :
    readStopLines p r.val s = reply p .wrongState .empty s := by
  unfold readStopLines
  rw [routeOf_val]
  dsimp only
  rw [train]

theorem readStopLines_badArg (hn : 5 < n) : readStopLines p n s = reply p .badArg .empty s := by
  unfold readStopLines; rw [routeOf_eq_none hn]

/-! ## The search of an arrival (R129) -/

/-- A stop id stands in a list from an index on where the rest of the list holds it. -/
theorem findIdx?_drop_none {stops : List Byte} {pointer : Nat} {id : Byte} :
    (stops.drop pointer).findIdx? (· == id) = none ↔ ∀ j, pointer ≤ j → stops[j]? ≠ some id := by
  rw [List.findIdx?_eq_none_iff]
  constructor
  · intro absent j hj e
    have : id ∈ stops.drop pointer := List.mem_iff_getElem?.mpr ⟨j - pointer, by rw [List.getElem?_drop, Nat.add_sub_cancel' hj, e]⟩
    simpa using absent id this
  · intro absent x hx
    obtain ⟨j, hj⟩ := List.mem_iff_getElem?.mp hx
    rw [List.getElem?_drop] at hj
    rw [beq_eq_false_iff_ne]
    rintro rfl
    exact absent _ (Nat.le_add_right ..) hj

theorem findIdx?_drop_some {stops : List Byte} {pointer k : Nat} {id : Byte} :
    (∃ j, (stops.drop pointer).findIdx? (· == id) = some j ∧ pointer + j = k) ↔
      pointer ≤ k ∧ stops[k]? = some id ∧ ∀ j, pointer ≤ j → j < k → stops[j]? ≠ some id := by
  have inside : ∀ j, (stops.drop pointer)[j]? = stops[pointer + j]? := fun j => List.getElem?_drop
  simp only [List.findIdx?_eq_some_iff_getElem, beq_iff_eq]
  constructor
  · rintro ⟨j, ⟨hj, here, before⟩, rfl⟩
    refine ⟨Nat.le_add_right .., by rw [← inside, List.getElem?_eq_getElem hj, here], fun i low high e => ?_⟩
    have hi : (stops.drop pointer)[i - pointer]? = some id := by rw [inside, Nat.add_sub_cancel' low, e]
    obtain ⟨_, hi⟩ := List.getElem?_eq_some_iff.mp hi
    exact before (i - pointer) (by omega) hi
  · rintro ⟨low, here, before⟩
    have hj : (stops.drop pointer)[k - pointer]? = some id := by rw [inside, Nat.add_sub_cancel' low, here]
    obtain ⟨hj, here⟩ := List.getElem?_eq_some_iff.mp hj
    refine ⟨k - pointer, ⟨hj, here, fun i hi e => ?_⟩, by omega⟩
    exact before (pointer + i) (by omega) (by omega) (by rw [← inside, List.getElem?_eq_getElem (by omega), e])

theorem contains_take {stops : List Byte} {pointer : Nat} {id : Byte} :
    (stops.take pointer).contains id = true ↔ ∃ j, j < pointer ∧ stops[j]? = some id := by
  rw [List.contains_iff_mem, List.mem_iff_getElem?]
  refine exists_congr fun j => ?_
  rw [List.getElem?_take]
  split <;> simp [*]

end Sys2Proof.Machine

open Sys2Proof Sys2Proof.Machine

/-- Settles O29: the older of two live manifests that fit. -/
theorem routeAndLapNameTheManifest : Obligations.RouteAndLapNameTheManifest := by
  intro s r lap fits
  refine ⟨s.manifest_eq_some r lap, s.manifest_eq_none r lap, fun st hst => ⟨s.manifestIn_eq_some r hst, ?_⟩⟩
  rw [State.manifestIn_none hst]
  exact ⟨fun h => ⟨h .lower, h .upper⟩, fun h k => by cases k; exacts [h.1, h.2]⟩

/-- Settles O43: by whether the rest of the list, or its front, holds the stop id. -/
theorem arrivalSearchesForward : Obligations.ArrivalSearchesForward := by
  intro stops pointer id
  unfold findStop
  refine ⟨fun k => ?_, ?_, ?_⟩
  · rw [← findIdx?_drop_some]
    cases (stops.drop pointer).findIdx? (· == id) with
    | some j => simp
    | none => dsimp only; split <;> simp
  · rw [← findIdx?_drop_none, ← contains_take]
    cases (stops.drop pointer).findIdx? (· == id) with
    | some j => simp
    | none =>
      dsimp only
      split
      next front => exact iff_of_true rfl ⟨rfl, front⟩
      next front => exact iff_of_false (fun e => nomatch e) fun e => front e.2
  · rw [List.mem_iff_getElem?]
    cases found : (stops.drop pointer).findIdx? (· == id) with
    | some j =>
      obtain ⟨-, here, -⟩ := findIdx?_drop_some.mp ⟨j, found, rfl⟩
      simp only [reduceCtorEq, false_iff, not_not]
      exact ⟨_, here⟩
    | none =>
      have later := findIdx?_drop_none.mp found
      have front : (∃ j : Nat, stops[j]? = some id) ↔ (stops.take pointer).contains id = true := by
        rw [contains_take]
        exact ⟨fun ⟨j, hj⟩ => ⟨j, by_contra fun low => later j (by omega) hj, hj⟩, fun ⟨j, _, hj⟩ => ⟨j, hj⟩⟩
      rw [front]
      dsimp only
      split
      next h => exact iff_of_false (fun e => nomatch e) fun e => e h
      next h => exact iff_of_true rfl h

/-- Settles O30: each report and each refusal by its request's tests. -/
theorem manifestsAreReported : Obligations.ManifestsAreReported := by
  intro s hs
  have everyPort (p : Port) : permitted p .readManifest = true := permitted_common (by decide) p
  refine ⟨fun p r lap n h hn named => ⟨?_, ?_⟩, fun r h train => ?_, fun p n lap m bad => ?_, fun n lap m hn => ⟨?_, ?_⟩,
    fun p r lap m missing => ⟨fun hm => ?_, ?_⟩, fun r lap m h named hm => ?_, fun r train => ?_⟩
  · obtain ⟨t, taken, answered⟩ := exec_onlyAnswers (i := .readManifest p r.val lap n) hs rfl (everyPort p) (readManifest_ok hn named)
    rw [State.manifestReport_eq] at answered
    exact ⟨t, _, taken, answered, page_length .., fun k e hk => page_getElem? hk⟩
  · obtain ⟨t, taken, answered⟩ := exec_onlyAnswers (i := .readPickList .sp r.val lap n) hs rfl (by decide)
      ((atManifest_found named).trans (if_neg (by omega)))
    refine ⟨t, _, taken, answered, by rw [List.length_map, page_length], fun k e hk => ?_⟩
    rw [List.getElem?_map] at hk
    obtain ⟨x, hx, rfl⟩ := Option.map_eq_some_iff.mp hk
    obtain ⟨number, line⟩ := page_getElem? hx
    exact ⟨x.2, line, by rw [pickLine_eq, number]; rfl⟩
  · obtain ⟨t, taken, answered⟩ := exec_onlyAnswers (i := .readStopLines .tp r.val) hs rfl (by decide) (readStopLines_ok train)
    rw [State.stopLinesReport_eq] at answered
    refine ⟨t, _, taken, answered, congrArg (List.take 8) ?_⟩
    rw [openLines_map]
    refine List.filterMap_congr fun k _ => ?_
    cases (s.buffer r h).lines[k]? <;> rfl
  · exact exec_onlyAnswers (i := .readManifest p n lap m) hs rfl (everyPort p) (readManifest_badArg bad)
  · exact exec_onlyAnswers (i := .readPickList .sp n lap m) hs rfl (by decide) (atManifest_badArg hn)
  · exact exec_onlyAnswers (i := .readStopLines .tp n) hs rfl (by decide) (readStopLines_badArg hn)
  · exact exec_onlyAnswers (i := .readManifest p r.val lap m) hs rfl (everyPort p) (readManifest_notFound hm missing)
  · exact exec_onlyAnswers (i := .readPickList .sp r.val lap m) hs rfl (by decide) (atManifest_notFound missing)
  · exact exec_onlyAnswers (i := .readPickList .sp r.val lap m) hs rfl (by decide) ((atManifest_found named).trans (if_pos hm))
  · exact exec_onlyAnswers (i := .readStopLines .tp r.val) hs rfl (by decide) (readStopLines_wrongState train)
end

section
/-!
PROOFS: the train's and the supermarket's requests. What handing lines back comes to, said once; then each request in the states its
rule names.
-/

namespace Sys2Proof.Machine

open Sys2Proof

variable {s : State} {p : Port} {r : RouteId} {h : Half}

/-! ## Lines handed back -/

/-- The lines handed back, one after another, each with its undelivered containers (R122). -/
theorem foldl_returnPlanned (cls : ManifestLine → DemandClass) : ∀ (back : List ManifestLine) (s : State),
    (∀ y ∈ back, y.state = .planned) →
      back.foldl (State.returnPlanned cls) s = back.foldl (fun u y => u.returnLine y (y.held - y.delivered) (cls y)) s
  | [], _, _ => rfl
  | y :: back, s, planned => by
    have one : State.returnPlanned cls s y = s.returnLine y (y.held - y.delivered) (cls y) := by
      rw [State.returnPlanned, ManifestLine.undelivered, if_pos (planned y List.mem_cons_self)]
    rw [List.foldl_cons, List.foldl_cons, one]
    exact foldl_returnPlanned cls back _ fun z hz => planned z (List.mem_cons_of_mem _ hz)

theorem State.backLines_planned {sel : ManifestLine → Bool} {y : ManifestLine} (hy : y ∈ s.backLines r h sel) : y.state = .planned := by
  have := (List.mem_filter.mp hy).2
  simp only [handedBack, Bool.and_eq_true, beq_iff_eq] at this
  exact this.1

/-- The bin containers handed back (R127, R135). -/
theorem binsBack_eq {back : List ManifestLine} (planned : ∀ y ∈ back, y.state = .planned) :
    binsBack back = (back.map fun y => match y.load with | .bin _ => y.held - y.delivered | .rack .. => 0).sum := by
  unfold binsBack
  refine congrArg List.sum (List.map_congr_left fun y hy => ?_)
  cases y.load with
  | bin c => exact if_pos (planned y hy)
  | rack a b n => rfl

/-- The state after the lines that a test names went back, in manifest order, each with its class (R122). -/
def State.withReturns (s : State) (r : RouteId) (h : Half) (left : ManifestLine → Bool) (cls : ManifestLine → DemandClass) : State :=
  ((s.buffer r h).lines.filter left).foldl (fun u y => u.returnLine y (y.held - y.delivered) (cls y)) s

/-- The lines handed back under a test become RETURNED (R121). -/
def Buffer.withReturns (b : Buffer) (left : ManifestLine → Bool) : Buffer :=
  { b with lines := b.lines.map fun y => if left y then { y with state := .returned } else y }

/-- What handing lines back comes to, with the route changed after it (R122, R123). -/
structure HandsBack (s t : State) (r : RouteId) (h : Half) (left : ManifestLine → Bool) (cls : ManifestLine → DemandClass)
    (cause : ReturnCause) (g : Route → Route) : Prop where
  rest : t = { s with
    slots := (s.withReturns r h left cls).slots, demand := (s.withReturns r h left cls).demand
    queues := t.queues, routes := t.routes }
  queues : t.queues = if ((s.buffer r h).lines.filter left).length = 0 then (s.withReturns r h left cls).queues
    else ((s.withReturns r h left cls).raise
      (.linesReturned r (s.buffer r h).lap cause ((s.buffer r h).lines.filter left).length)).queues
  others : OnlyRoute s t r
  route : t.route r = g { s.route r with buffers := (s.route r).buffers.modify h fun b => b.withReturns left }

section

variable {t : State} {left sel : ManifestLine → Bool} {cls : ManifestLine → DemandClass} {cause : ReturnCause} {g : Route → Route}

theorem State.backLines_eq (hl : ∀ y, handedBack sel y = left y) : s.backLines r h sel = (s.buffer r h).lines.filter left :=
  List.filter_congr fun y _ => hl y

theorem handBack_handsBack (s : State) (r : RouteId) (h : Half) (hl : ∀ y, handedBack sel y = left y)
    (cls : ManifestLine → DemandClass) (cause : ReturnCause) (g : Route → Route) :
    HandsBack s (((s.handBack r h sel cls).tellReturned r (s.buffer r h).lap cause
      ((s.buffer r h).lines.filter left).length).modRoute r g) r h left cls cause g := by
  have returns := State.foldl_returnPlanned_rest cls (s.backLines r h sel) s
  have back := s.handBack_rest r h sel cls
  rw [foldl_returnPlanned cls _ s fun y hy => State.backLines_planned hy, State.backLines_eq hl] at returns back
  change s.withReturns r h left cls = _ at returns
  have marked : markReturned sel = fun y => if left y then { y with state := .returned } else y := funext fun y => by
    rw [markReturned, hl]
  rw [marked] at back
  obtain ⟨n, hn⟩ : ∃ n, n = ((s.buffer r h).lines.filter left).length := ⟨_, rfl⟩
  rw [← hn]
  generalize s.handBack r h sel cls = v at back ⊢
  have told := v.tellReturned_rest r (s.buffer r h).lap cause n
  have queues : (v.tellReturned r (s.buffer r h).lap cause n).queues = if n = 0 then (s.withReturns r h left cls).queues
      else ((s.withReturns r h left cls).raise (.linesReturned r (s.buffer r h).lap cause n)).queues := by
    unfold State.tellReturned
    split
    · rw [back]; rfl
    · exact State.raise_queues_congr (by rw [back]; rfl) (by rw [back, returns]) _
  have route (q : RouteId) : (v.tellReturned r (s.buffer r h).lap cause n).route q =
      (s.modBuffer r h fun b => b.withReturns left).route q := by
    unfold State.route; rw [told, back]; rfl
  generalize v.tellReturned r (s.buffer r h).lap cause n = w at told queues route ⊢
  exact {
    rest := by rw [told, back]; rfl
    queues := by rw [← hn]; exact queues
    others := fun q hq => (State.route_modRoute_ne w g hq).trans ((route q).trans (State.route_modRoute_ne s _ hq))
    route := (State.route_modRoute_self ..).trans (congrArg g ((route r).trans (State.route_modRoute_self ..))) }

/-- The buffers after lines went back, where the route's change leaves its buffers. -/
theorem HandsBack.buffers (back : HandsBack s t r h left cls cause g) (hg : ∀ x, (g x).buffers = x.buffers) :
    t.buffer r h = (s.buffer r h).withReturns left ∧ t.buffer r h.other = s.buffer r h.other := by
  unfold State.buffer
  rw [back.route, hg]
  exact ⟨Pair.get_modify_self .., Pair.get_modify_other ..⟩

/-- The route after lines went back and the buffer was freed (R97, R136). -/
theorem HandsBack.freed (back : HandsBack s t r h left cls cause fun x => x.freed h) :
    t.buffer r h = { s.buffer r h with state := .free, lines := [] } ∧ t.buffer r h.other = s.buffer r h.other ∧
      t.route r = { s.route r with
        buffers := (t.route r).buffers, older := (t.route r).older
        pointer := if (s.buffer r h).state = .onRoute then 0 else (s.route r).pointer
        current := if (s.buffer r h).state = .onRoute then none else (s.route r).current } ∧
      ((s.buffer r h.other).state ≠ .free → (t.route r).older = h.other) := by
  have own := back.route
  refine ⟨?_, ?_, ?_, fun live => ?_⟩
  · unfold State.buffer
    rw [own, Route.freed_buffer, Pair.get_modify_self]
    rfl
  · unfold State.buffer
    rw [own, Route.freed_other, Pair.get_modify_other]
  · rw [own]
    refine (Route.freed_rest _ h).trans ?_
    rw [Pair.get_modify_self]
    rfl
  · rw [own, Route.freed_older, Pair.get_modify_other]
    exact if_pos ((Buffer.live_iff _).mpr live)

/-- The same with its answer. -/
theorem HandsBack.replied (back : HandsBack s t r h left cls cause g) (p : Port) (st : Status) (b : Body) :
    Answered s (reply p st b t) p st b ∧
      reply p st b t = { s with
        slots := (s.withReturns r h left cls).slots, demand := (s.withReturns r h left cls).demand
        queues := (reply p st b t).queues, routes := (reply p st b t).routes, ports := (reply p st b t).ports } :=
  ⟨reply_answers (by rw [back.rest]), by rw [back.rest]; rfl⟩

end

/-- A change of one buffer alone. -/
theorem modBuffer_moves (s : State) (r : RouteId) (h : Half) (f : Buffer → Buffer) :
    s.modBuffer r h f = { s with routes := (s.modBuffer r h f).routes } ∧ OnlyRoute s (s.modBuffer r h f) r ∧
      (s.modBuffer r h f).buffer r h.other = s.buffer r h.other ∧
      (s.modBuffer r h f).route r = { s.route r with buffers := ((s.modBuffer r h f).route r).buffers } ∧
      (s.modBuffer r h f).buffer r h = f (s.buffer r h) :=
  ⟨rfl, fun _ hk => State.route_modRoute_ne s _ hk, State.buffer_modBuffer_ne s r f h.other_ne,
    by simp only [State.modBuffer, State.route_modRoute_self], State.buffer_modBuffer_self s r h f⟩

/-- A request answered with a state that it made. -/
theorem exec_replies {i : Instr} {q : Request} {st : Status} {b : Body} {u : State} (hs : s.resetN = .high)
    (hi : requestIn? i = some (p, q)) (hp : permitted p q = true) (h : takeOwner i s = reply p st b u) :
    exec i s = .next (reply p st b u) := (exec_request hi hs hp).trans (congrArg _ h)

/-! ## Demand does not read the manifests -/

section

variable (s : State) (r : RouteId) (h : Half) (f : Buffer → Buffer) (i : SlotId) (n : Nat) (cls : DemandClass)

theorem modBuffer_cfg (q : RouteId) : ((s.modBuffer r h f).route q).cfg = (s.route q).cfg := by
  unfold State.modBuffer
  rw [State.route_modRoute]
  split
  next e => rw [e]
  · rfl

theorem modBuffer_mapSlot : (s.modBuffer r h f).mapSlot i = s.mapSlot i := by
  unfold State.mapSlot State.mapCode
  simp only [modBuffer_cfg, State.modBuffer_slot]
  rfl

theorem modBuffer_raise (e : Event) : (s.modBuffer r h f).raise e = (s.raise e).modBuffer r h f := rfl

theorem modBuffer_judgeHigh : (s.modBuffer r h f).judgeHigh i = (s.judgeHigh i).modBuffer r h f := by
  unfold State.judgeHigh
  rw [apply_ite (fun t : State => t.modBuffer r h f)]
  rfl

theorem modBuffer_createOpen : (s.modBuffer r h f).createOpen i n cls = (s.createOpen i n cls).modBuffer r h f := by
  unfold State.createOpen
  dsimp only
  rw [modBuffer_mapSlot, ← modBuffer_judgeHigh]
  cases (s.mapSlot i).isNone <;> rfl

theorem modBuffer_refuseLine (cause : FullCause) :
    (s.modBuffer r h f).refuseLine i cause n = (s.refuseLine i cause n).modBuffer r h f := by
  unfold State.refuseLine
  rw [apply_ite (fun t : State => t.modBuffer r h f)]
  rfl

theorem modBuffer_order : (s.modBuffer r h f).order i n = (s.order i n).modBuffer r h f := by
  unfold State.order
  rw [modBuffer_createOpen, apply_ite (fun t : State => t.modBuffer r h f), apply_ite (fun t : State => t.modBuffer r h f),
    ← modBuffer_refuseLine]
  rfl

theorem modBuffer_evaluate : (s.modBuffer r h f).evaluate i = (s.evaluate i).modBuffer r h f := by
  unfold State.evaluate
  dsimp only
  rw [modBuffer_order]
  simp only [apply_ite (fun t : State => t.modBuffer r h f)]
  rfl

theorem modBuffer_placeReturn : (s.modBuffer r h f).placeReturn i n cls = (s.placeReturn i n cls).modBuffer r h f := by
  unfold State.placeReturn
  rw [modBuffer_createOpen, apply_ite (fun t : State => t.modBuffer r h f), apply_ite (fun t : State => t.modBuffer r h f),
    ← modBuffer_refuseLine]
  rfl

theorem modBuffer_returnBins : (s.modBuffer r h f).returnBins i n cls = (s.returnBins i n cls).modBuffer r h f := by
  unfold State.returnBins
  dsimp only
  rw [State.modBuffer_slot, modBuffer_placeReturn]
  split
  · rfl
  · rfl
  · simp only [apply_ite (fun t : State => t.modBuffer r h f), ← modBuffer_placeReturn]
    rfl

theorem modBuffer_returnLine (x : ManifestLine) :
    (s.modBuffer r h f).returnLine x n cls = (s.returnLine x n cls).modBuffer r h f := by
  unfold State.returnLine
  split
  · rw [modBuffer_returnBins, apply_ite (fun t : State => t.modBuffer r h f)]
  · rfl

theorem modBuffer_deliverLine (x : ManifestLine) : (s.modBuffer r h f).deliverLine x = (s.deliverLine x).modBuffer r h f := by
  unfold State.deliverLine State.deliverBin
  split
  · rw [State.modBuffer_slot, apply_ite (fun t : State => t.modBuffer r h f), ← modBuffer_evaluate]
    rfl
  · rfl

end

/-! ## The train's requests -/

theorem atTrain_cold {n : Nat} {k : RouteId → State} (cold : s.mode = .cold) : atTrain p n s k = reply p .notActive .empty s :=
  if_pos cold

theorem atTrain_badArg {n : Nat} {k : RouteId → State} (awake : s.mode ≠ .cold) (hn : 5 < n) :
    atTrain p n s k = reply p .badArg .empty s := by
  unfold atTrain; rw [if_neg awake, routeOf_eq_none hn]

theorem atTrain_taken {k : RouteId → State} (awake : s.mode ≠ .cold) : atTrain p r.val s k = k r := by
  unfold atTrain; rw [if_neg awake, routeOf_val]

theorem depart_ok (awake : s.mode ≠ .cold) (idle : s.manifestIn r .onRoute = none) (loaded : s.manifestIn r .loaded = some h) :
    depart p r.val s = reply p .ok
      (.departed (s.buffer r h).lap (s.buffer r h).lines.length (s.route r).cfg.stops.length)
      ((s.modBuffer r h fun b => { b with state := .onRoute, stops := some (s.route r).cfg.stops }).modRoute r
        fun x => { x with pointer := 0, current := none }) :=
  (atTrain_taken awake).trans (by rw [idle, loaded]; rfl)

/-- An arrival's lines left behind (R130). -/
def leftByArrival (current : Option Nat) (pointer k : Nat) (y : ManifestLine) : Bool :=
  y.state == .planned && (current == some y.stop || (decide (pointer ≤ y.stop) && decide (y.stop < k)))

theorem handedBack_leftBehind (current : Option Nat) (pointer k : Nat) (y : ManifestLine) :
    handedBack (leftBehind current pointer k) y = leftByArrival current pointer k y := by
  simp only [handedBack, leftBehind, leftByArrival, Bool.decide_and]

/-- The lines still open at a stop after lines went back. -/
theorem Buffer.withReturns_openAt (b : Buffer) (left : ManifestLine → Bool) (k : Nat) :
    (b.withReturns left).lines.countP (·.openAt k) = b.lines.countP fun y => y.stop == k && y.state == .planned && !left y := by
  unfold Buffer.withReturns
  rw [List.countP_map]
  congr 1
  funext y
  show ManifestLine.openAt k (if left y then { y with state := .returned } else y) = _
  cases left y <;> simp [ManifestLine.openAt]

theorem arrive_found {id : Byte} {k : Nat} (awake : s.mode ≠ .cold) (train : s.manifestIn r .onRoute = some h)
    (found : findStop ((s.buffer r h).stops.getD []) (s.route r).pointer id = .found k) :
    ∃ t, HandsBack s t r h (leftByArrival (s.route r).current (s.route r).pointer k) asUrgent .skipped
        (fun x => { x with current := some k, pointer := k + 1 }) ∧
      arrive p r.val id s = reply p .ok (.arrived k
        ((s.buffer r h).lines.filter (leftByArrival (s.route r).current (s.route r).pointer k)).length
        ((s.buffer r h).lines.countP fun y =>
          y.stop == k && y.state == .planned && !leftByArrival (s.route r).current (s.route r).pointer k y)) t := by
  have hl := handedBack_leftBehind (s.route r).current (s.route r).pointer k
  have back := handBack_handsBack s r h hl asUrgent .skipped fun x => { x with current := some k, pointer := k + 1 }
  refine ⟨_, back, (atTrain_taken awake).trans ?_⟩
  rw [train]
  dsimp only
  rw [found]
  dsimp only
  rw [State.backLines_eq hl, (back.buffers fun _ => rfl).1, Buffer.withReturns_openAt]

theorem arrive_refused {id : Byte} (awake : s.mode ≠ .cold) (train : s.manifestIn r .onRoute = some h) :
    (findStop ((s.buffer r h).stops.getD []) (s.route r).pointer id = .behind → arrive p r.val id s = reply p .behind .empty s) ∧
      (findStop ((s.buffer r h).stops.getD []) (s.route r).pointer id = .unknown →
        arrive p r.val id s = reply p .unknownStop .empty s) :=
  ⟨fun found => (atTrain_taken awake).trans (by rw [train]; dsimp only; rw [found]),
    fun found => (atTrain_taken awake).trans (by rw [train]; dsimp only; rw [found])⟩

/-- Every PLANNED line (R127, R135). -/
def stillPlanned (y : ManifestLine) : Bool := y.state == .planned

theorem handedBack_all (y : ManifestLine) : handedBack (fun _ => true) y = stillPlanned y := Bool.and_true _

/-- The bin containers of the PLANNED lines (R127, R135). -/
def Buffer.binsPlanned (b : Buffer) : Nat :=
  ((b.lines.filter stillPlanned).map fun y => match y.load with | .bin _ => y.held - y.delivered | .rack .. => 0).sum

theorem binsBack_planned (s : State) (r : RouteId) (h : Half) : binsBack (s.backLines r h fun _ => true) = (s.buffer r h).binsPlanned := by
  rw [binsBack_eq fun y hy => State.backLines_planned hy, State.backLines_eq handedBack_all]
  rfl

theorem lapEnd_ok (awake : s.mode ≠ .cold) (train : s.manifestIn r .onRoute = some h) :
    ∃ t, HandsBack s t r h stillPlanned asUrgent .lapEnd (fun x => x.freed h) ∧
      lapEnd p r.val s = reply p .ok (.lapEnded (s.buffer r h).lap ((s.buffer r h).lines.filter stillPlanned).length
        (s.buffer r h).binsPlanned) t := by
  refine ⟨_, handBack_handsBack s r h handedBack_all asUrgent .lapEnd fun x => x.freed h, (atTrain_taken awake).trans ?_⟩
  rw [train]
  dsimp only
  rw [binsBack_planned, State.backLines_eq handedBack_all]

/-! ## Drops -/

/-- The open lines stand in ascending number. -/
theorem openLines_sorted (lines : List ManifestLine) (stop : Nat) : (openLines lines stop).Pairwise fun e f => e.1 < f.1 := by
  refine List.Pairwise.filter _ ?_
  rw [List.pairwise_iff_getElem]
  intro i j hi hj hij
  have at_ (k : Nat) (hk : k < (numbered lines).length) : (numbered lines)[k].1 = k :=
    (numbered_getElem? (List.getElem?_eq_getElem hk)).1
  rw [at_, at_]
  exact hij

theorem mem_openLines {lines : List ManifestLine} {stop k : Nat} {y : ManifestLine} :
    (k, y) ∈ openLines lines stop ↔ lines[k]? = some y ∧ y.openAt stop = true := by
  unfold openLines
  rw [List.mem_filter, mem_numbered]

/-- The first of a list in ascending order. -/
theorem mem_take_one {L : List (Nat × ManifestLine)} (sorted : L.Pairwise fun e f => e.1 < f.1) {e : Nat × ManifestLine} :
    e ∈ L.take 1 ↔ e ∈ L ∧ ∀ f ∈ L, e.1 ≤ f.1 := by
  cases L with
  | nil => simp
  | cons a L =>
    obtain ⟨least, -⟩ := List.pairwise_cons.mp sorted
    simp only [List.take_succ_cons, List.take_zero, List.mem_cons, List.not_mem_nil, or_false]
    constructor
    · rintro rfl
      exact ⟨.inl rfl, fun f hf => hf.elim (fun e => e ▸ Nat.le_refl _) fun hf => (least f hf).le⟩
    · rintro ⟨rfl | he, first⟩
      · rfl
      · exact absurd (least e he) (by have := first a (.inl rfl); omega)

/-- The open lines a drop tries (R131). -/
def triedLines (m : MatchMode) (tried : List (Nat × ManifestLine)) : List (Nat × ManifestLine) :=
  match m with
  | .first => tried.take 1
  | .any => tried

theorem dropHit_eq (m : MatchMode) (mask : PartNo) (label : DropLabel) (tried : List (Nat × ManifestLine)) :
    dropHit m mask label tried = (triedLines m tried).find? fun e => e.2.hitBy mask label := by cases m <;> rfl

theorem triedLines_sorted (m : MatchMode) (lines : List ManifestLine) (stop : Nat) :
    (triedLines m (openLines lines stop)).Pairwise fun e f => e.1 < f.1 := by
  cases m with
  | first => exact (openLines_sorted lines stop).sublist (List.take_sublist ..)
  | any => exact openLines_sorted lines stop

/-- A line is tried where it is open and, under FIRST, no line before it is (R131). -/
theorem mem_triedLines {m : MatchMode} {lines : List ManifestLine} {stop k : Nat} {y : ManifestLine} :
    (k, y) ∈ triedLines m (openLines lines stop) ↔ lines[k]? = some y ∧ y.openAt stop = true ∧
      (m = .first → ∀ (j : Nat) z, j < k → lines[j]? = some z → z.openAt stop = false) := by
  cases m with
  | any => simp [triedLines, mem_openLines]
  | first =>
    show (k, y) ∈ (openLines lines stop).take 1 ↔ _
    rw [mem_take_one (openLines_sorted lines stop), mem_openLines, and_assoc]
    refine and_congr_right fun _ => and_congr_right fun _ => ⟨fun first _ j z hj hz => ?_, fun first e he => ?_⟩
    · rw [← Bool.not_eq_true]
      intro hopen
      have := first (j, z) (mem_openLines.mpr ⟨hz, hopen⟩)
      simp only at this; omega
    · obtain ⟨hz, hopen⟩ := mem_openLines.mp he
      by_contra hj
      rw [first rfl e.1 e.2 (by simp only at hj; omega) hz] at hopen
      cases hopen

theorem ManifestLine.hitBy_iff (mask : PartNo) (label : DropLabel) (y : ManifestLine) : y.hitBy mask label = true ↔
    label.part &&& mask = y.part &&& mask ∧ ∀ a z k, y.load = .rack a z k → label.qualifier = a := by
  unfold hitBy
  rw [Bool.and_eq_true, beq_iff_eq]
  cases y.load with
  | bin c => simp
  | rack a z k => simp

/-- The first of a list in ascending order that a test passes. -/
theorem find?_sorted {L : List (Nat × ManifestLine)} (sorted : L.Pairwise fun e f => e.1 < f.1) {test : Nat × ManifestLine → Bool}
    {e : Nat × ManifestLine} (mem : e ∈ L) (passes : test e = true) (first : ∀ f ∈ L, f.1 < e.1 → test f = false) :
    L.find? test = some e := by
  induction L with
  | nil => cases mem
  | cons a L ih =>
    obtain ⟨least, sorted⟩ := List.pairwise_cons.mp sorted
    obtain rfl | mem := List.mem_cons.mp mem
    · exact List.find?_cons_of_pos passes
    · rw [List.find?_cons_of_neg (by rw [first a List.mem_cons_self (least e mem)]; decide)]
      exact ih sorted mem fun f hf => first f (List.mem_cons_of_mem _ hf)

variable {label : DropLabel} {stop : Nat}

theorem drop_missed (awake : s.mode ≠ .cold) (train : s.manifestIn r .onRoute = some h) (current : (s.route r).current = some stop)
    (miss : ∀ e ∈ triedLines (s.route r).cfg.matchMode (openLines (s.buffer r h).lines stop),
      e.2.hitBy (s.route r).cfg.mask label = false) :
    drop p r.val label s = reply p .mismatch (.missed stop ((s.buffer r h).lines.countP fun y => y.openAt stop))
      (s.modRoute r fun x => { x with mismatches := bump x.mismatches }) := by
  refine (atTrain_taken awake).trans ?_
  rw [train]
  dsimp only
  rw [current]
  dsimp only
  rw [dropHit_eq, List.find?_eq_none.mpr fun e he => by simp [miss e he], openLines_length]

theorem drop_hit {k : Nat} {y : ManifestLine} (awake : s.mode ≠ .cold) (train : s.manifestIn r .onRoute = some h)
    (current : (s.route r).current = some stop)
    (mem : (k, y) ∈ triedLines (s.route r).cfg.matchMode (openLines (s.buffer r h).lines stop))
    (hit : y.hitBy (s.route r).cfg.mask label = true)
    (first : ∀ e ∈ triedLines (s.route r).cfg.matchMode (openLines (s.buffer r h).lines stop), e.1 < k →
      e.2.hitBy (s.route r).cfg.mask label = false) :
    drop p r.val label s = reply p .ok (.dropped k y.slot (y.delivered + 1) y.held y.dropped.state)
      ((s.deliverLine y).modBuffer r h fun b => { b with lines := b.lines.set k y.dropped }) := by
  refine (atTrain_taken awake).trans ?_
  rw [train]
  dsimp only
  rw [current]
  dsimp only
  rw [dropHit_eq, find?_sorted (triedLines_sorted ..) mem hit first]
  dsimp only
  rw [modBuffer_deliverLine]
  rfl

/-! ## The supermarket's requests -/

variable {lap : Lap}

theorem beginPick_taken (awake : s.mode ≠ .cold) (named : s.manifest r lap = some h) :
    beginPick p r.val lap s = if (s.buffer r h).state = .offered then
      reply p .ok (.lineCount (s.buffer r h).lines.length) (s.modBuffer r h fun b => { b with state := .picking })
    else reply p .wrongState .empty s :=
  (if_neg awake).trans (atManifest_found named)

theorem loadConfirm_taken (awake : s.mode ≠ .cold) (named : s.manifest r lap = some h) :
    loadConfirm p r.val lap s = if (s.buffer r h).state = .offered ∨ (s.buffer r h).state = .picking then
      reply p .ok (.load (s.buffer r h).load) (s.modBuffer r h fun b => { b with state := .loaded })
    else reply p .wrongState .empty s :=
  (if_neg awake).trans (atManifest_found named)

theorem shortPick_wrongState {k n : Nat} (awake : s.mode ≠ .cold) (named : s.manifest r lap = some h)
    (away : (s.buffer r h).state ≠ .offered ∧ (s.buffer r h).state ≠ .picking) :
    shortPick p r.val lap k n s = reply p .wrongState .empty s :=
  ((if_neg awake).trans (atManifest_found named)).trans (if_pos away)

theorem shortPick_badArg {k n : Nat} (awake : s.mode ≠ .cold) (named : s.manifest r lap = some h)
    (waiting : (s.buffer r h).state = .offered ∨ (s.buffer r h).state = .picking)
    (bad : (s.buffer r h).lines.length ≤ k ∨ ∃ y, (s.buffer r h).lines[k]? = some y ∧ y.held ≤ n) :
    shortPick p r.val lap k n s = reply p .badArg .empty s := by
  refine ((if_neg awake).trans (atManifest_found named)).trans ((if_neg (by tauto)).trans ?_)
  obtain long | ⟨y, line, few⟩ := bad
  · rw [List.getElem?_eq_none long]
  · rw [line]; exact if_pos few

theorem shortPick_ok {k n : Nat} {y : ManifestLine} (awake : s.mode ≠ .cold) (named : s.manifest r lap = some h)
    (waiting : (s.buffer r h).state = .offered ∨ (s.buffer r h).state = .picking)
    (line : (s.buffer r h).lines[k]? = some y) (fewer : n < y.held) :
    shortPick p r.val lap k n s = reply p .ok (.held n)
      (((s.returnLine y (y.held - n) .urgent).raise (.linesReturned r (s.buffer r h).lap .shortPick 1)).modBuffer r h
        fun b => b.shortPicked k y n) := by
  refine ((if_neg awake).trans (atManifest_found named)).trans ((if_neg (by tauto)).trans ?_)
  rw [line]
  dsimp only
  rw [if_neg (by omega), modBuffer_returnLine]
  rfl

theorem cancelManifest_ok (named : s.manifest r lap = some h) (waiting : (s.buffer r h).state ≠ .onRoute) :
    ∃ t, HandsBack s t r h stillPlanned asSelected .cancel (fun x => x.freed h) ∧
      cancelManifest p r.val lap s = reply p .ok (.manifestCancelled ((s.buffer r h).lines.filter stillPlanned).length
        (s.buffer r h).binsPlanned) t := by
  refine ⟨_, handBack_handsBack s r h handedBack_all asSelected .cancel fun x => x.freed h,
    (atManifest_found named).trans ((if_neg waiting).trans ?_)⟩
  dsimp only
  rw [binsBack_planned, State.backLines_eq handedBack_all]

end Sys2Proof.Machine

open Sys2Proof Sys2Proof.Machine

/-- Settles O42: the tests of each train request in their order. -/
theorem departSendsTheOldestLoadedTrain : Obligations.DepartSendsTheOldestLoadedTrain := by
  intro s hs
  refine ⟨fun r h awake idle loaded => ?_, fun i which => ⟨fun cold n => ?_, fun awake n hn => ?_, fun awake other r none => ?_⟩,
    fun r label awake train fresh => ?_, fun r awake => ⟨fun busy => ?_, fun idle none => ?_⟩⟩
  · refine ⟨_, exec_replies (i := .depart .tp r.val) hs rfl (by decide) (depart_ok awake idle loaded), reply_answers rfl, rfl,
      fun k hk => ?_, ?_, ?_, ?_⟩
    · rw [reply_route]
      exact (State.route_modRoute_ne _ _ hk).trans (State.route_modRoute_ne s _ hk)
    · simp [State.modBuffer]
    · rw [reply_buffer]
      exact (State.modRoute_keepsBuffers _ r rfl h).trans (State.buffer_modBuffer_self ..)
    · rw [reply_buffer]
      exact (State.modRoute_keepsBuffers _ r rfl h.other).trans (State.buffer_modBuffer_ne s r _ h.other_ne)
  · obtain rfl | ⟨id, rfl⟩ | ⟨label, rfl⟩ | rfl := which <;> exact exec_onlyAnswers hs rfl (by decide) (atTrain_cold cold)
  · obtain rfl | ⟨id, rfl⟩ | ⟨label, rfl⟩ | rfl := which <;> exact exec_onlyAnswers hs rfl (by decide) (atTrain_badArg awake hn)
  · obtain rfl | ⟨id, rfl⟩ | ⟨label, rfl⟩ | rfl := which
    · exact absurd rfl other
    · exact exec_onlyAnswers hs rfl (by decide) ((atTrain_taken awake).trans (by rw [none]))
    · exact exec_onlyAnswers hs rfl (by decide) ((atTrain_taken awake).trans (by rw [none]))
    · exact exec_onlyAnswers hs rfl (by decide) ((atTrain_taken awake).trans (by rw [none]))
  · obtain ⟨h, train⟩ := Option.ne_none_iff_exists'.mp train
    exact exec_onlyAnswers (i := .drop .tp r.val label) hs rfl (by decide) ((atTrain_taken awake).trans (by rw [train]; dsimp only; rw [fresh]))
  · exact exec_onlyAnswers (i := .depart .tp r.val) hs rfl (by decide)
      ((atTrain_taken awake).trans (if_pos (Option.isSome_iff_ne_none.mpr busy)))
  · exact exec_onlyAnswers (i := .depart .tp r.val) hs rfl (by decide)
      ((atTrain_taken awake).trans (by rw [idle, none]; rfl))

/-- Settles O44: the lines left behind go back before the train moves on. -/
theorem arriveReturnsTheStopsLeft : Obligations.ArriveReturnsTheStopsLeft := by
  intro s r h id hs awake train x b search
  refine ⟨fun k found => ?_, fun behind => ?_, fun unknown => ?_⟩
  · intro left n u
    obtain ⟨t, back, owner⟩ := arrive_found (p := .tp) awake train found
    obtain ⟨answered, rest⟩ := back.replied .tp .ok (.arrived k (b.lines.filter left).length
      (b.lines.countP fun y => y.stop == k && y.state == .planned && !left y))
    have count : n = (b.lines.filter left).length := List.countP_eq_length_filter
    rw [count]
    exact ⟨_, exec_replies (i := .arrive .tp r.val id) hs rfl (by decide) owner, answered, rest, back.queues, back.others,
      (back.buffers fun _ => rfl).2, by rw [reply_route, back.route], (back.buffers fun _ => rfl).1⟩
  · exact exec_onlyAnswers (i := .arrive .tp r.val id) hs rfl (by decide) ((arrive_refused awake train).1 behind)
  · exact exec_onlyAnswers (i := .arrive .tp r.val id) hs rfl (by decide) ((arrive_refused awake train).2 unknown)

/-- Settles O47: every PLANNED line goes back and the buffer is freed. -/
theorem lapEndReturnsAndFrees : Obligations.LapEndReturnsAndFrees := by
  intro s r h hs awake train x b back bins u
  obtain ⟨t, handed, owner⟩ := lapEnd_ok (p := .tp) awake train
  obtain ⟨answered, rest⟩ := handed.replied .tp .ok (.lapEnded b.lap (b.lines.filter stillPlanned).length b.binsPlanned)
  obtain ⟨freed, other, route, older⟩ := handed.freed
  have away : (s.buffer r h).state = .onRoute := (State.manifestIn_some train).2
  rw [if_pos away, if_pos away] at route
  exact ⟨_, exec_replies (i := .lapEnd .tp r.val) hs rfl (by decide) owner, answered, rest, handed.queues, handed.others, other, route,
    older, freed⟩

/-- Settles O52: as the lap's end, each line with the class it was selected with. -/
theorem cancelReturnsEveryLineAndFrees : Obligations.CancelReturnsEveryLineAndFrees := by
  intro s hs
  refine ⟨fun r lap h named => ?_, fun n lap hn => ?_, fun r lap missing => ?_⟩
  · intro b back bins u
    refine ⟨fun waiting => ?_, fun away => ?_⟩
    · obtain ⟨t, handed, owner⟩ := cancelManifest_ok (p := .ep) named waiting
      obtain ⟨answered, rest⟩ :=
        handed.replied .ep .ok (.manifestCancelled (b.lines.filter stillPlanned).length b.binsPlanned)
      obtain ⟨freed, other, route, older⟩ := handed.freed
      rw [if_neg waiting, if_neg waiting] at route
      exact ⟨_, exec_replies (i := .cancelManifest .ep r.val lap) hs rfl (by decide) owner, answered, rest, handed.queues,
        handed.others, other, route, older, freed⟩
    · exact exec_onlyAnswers (i := .cancelManifest .ep r.val lap) hs rfl (by decide) ((atManifest_found named).trans (if_pos away))
  · exact exec_onlyAnswers (i := .cancelManifest .ep n lap) hs rfl (by decide) (atManifest_badArg hn)
  · exact exec_onlyAnswers (i := .cancelManifest .ep r.val lap) hs rfl (by decide) (atManifest_notFound missing)

/-- Settles O45: the first hit of the lines tried, or a mismatch. -/
theorem dropIsMatchedAtTheCurrentStop : Obligations.DropIsMatchedAtTheCurrentStop := by
  intro s r h label stop hs awake train current x b isOpen hits tried
  have tried_iff (k : Nat) (y : ManifestLine) : (k, y) ∈ triedLines x.cfg.matchMode (openLines b.lines stop) ↔ tried k y := mem_triedLines
  have misses {y : ManifestLine} (miss : ¬hits y) : y.hitBy x.cfg.mask label = false := by
    rw [← Bool.not_eq_true, ManifestLine.hitBy_iff]; exact miss
  refine ⟨fun none => ?_, fun k y htried hit first => ?_⟩
  · have owner := drop_missed (p := .tp) awake train current fun e he => misses (none e.1 e.2 ((tried_iff ..).mp he))
    exact ⟨_, exec_replies (i := .drop .tp r.val label) hs rfl (by decide) owner, reply_answers rfl, rfl,
      fun q hq => (reply_route ..).trans (State.route_modRoute_ne s _ hq), by rw [reply_route, State.route_modRoute_self]; rfl⟩
  · intro done st
    have planned : y.state = .planned := by
      have := htried.2.1
      simp only [isOpen, Bool.and_eq_true, beq_iff_eq] at this
      exact this.2
    have dropped : y.dropped = { y with delivered := done, state := st } := by
      unfold ManifestLine.dropped
      rw [planned]
    have owner := drop_hit (p := .tp) awake train current ((tried_iff k y).mpr htried) ((ManifestLine.hitBy_iff ..).mpr hit)
      fun e he low => misses (first e.1 e.2 low ((tried_iff ..).mp he))
    rw [dropped] at owner
    have delivered := s.deliverLine_rest y
    have route : ∀ q, (s.deliverLine y).route q = s.route q := fun q => by unfold State.route; rw [delivered]
    have buffer : ∀ q k, (s.deliverLine y).buffer q k = s.buffer q k := fun q k => by unfold State.buffer; rw [route]
    obtain ⟨-, others, other, own, line⟩ := modBuffer_moves (s.deliverLine y) r h fun b =>
      { b with lines := b.lines.set k { y with delivered := done, state := st } }
    rw [buffer] at other line
    rw [route] at own
    exact ⟨_, exec_replies (i := .drop .tp r.val label) hs rfl (by decide) owner, reply_answers (by rw [delivered]; rfl), line,
      by rw [delivered]; rfl, fun q hq => (others q hq).trans (route q), other, own⟩

/-- Settles O51: each request on the manifest named, by the state it is in. -/
theorem pickingMovesTheManifest : Obligations.PickingMovesTheManifest := by
  intro s hs
  refine ⟨fun r lap h awake named => ?_, fun n lap i which => ⟨fun cold => ?_, fun awake hn => ?_, fun awake r hr missing => ?_⟩⟩
  · intro b
    refine ⟨fun offered => ?_, fun other => ?_, fun waiting => ⟨?_, fun k y n line fewer => ?_, fun k n bad => ?_⟩, fun away i which => ?_⟩
    · have owner := (beginPick_taken (p := .sp) awake named).trans (if_pos offered)
      obtain ⟨-, others, other, own, changed⟩ := modBuffer_moves s r h fun b => { b with state := .picking }
      exact ⟨_, exec_replies (i := .beginPick .sp r.val lap) hs rfl (by decide) owner, reply_answers rfl, rfl, others, other, own, changed⟩
    · exact exec_onlyAnswers (i := .beginPick .sp r.val lap) hs rfl (by decide) ((beginPick_taken awake named).trans (if_neg other))
    · have owner := (loadConfirm_taken (p := .sp) awake named).trans (if_pos waiting)
      obtain ⟨-, others, other, own, changed⟩ := modBuffer_moves s r h fun b => { b with state := .loaded }
      exact ⟨_, exec_replies (i := .loadConfirm .sp r.val lap) hs rfl (by decide) owner, reply_answers rfl, rfl, others, other, own, changed⟩
    · intro u
      have owner := shortPick_ok (p := .sp) awake named waiting line fewer
      have returned : u = { s with slots := u.slots, demand := u.demand, queues := u.queues } :=
        s.returnLine_rest y (y.held - n) .urgent
      change _ = reply .sp .ok (.held n) ((u.raise (.linesReturned r b.lap .shortPick 1)).modBuffer r h fun b =>
        b.shortPicked k y n) at owner
      clear_value u
      have route : ∀ q, u.route q = s.route q := fun q => by unfold State.route; rw [returned]
      have buffer : ∀ q k, u.buffer q k = s.buffer q k := fun q k => by unfold State.buffer; rw [route]
      obtain ⟨-, others, other, own, changed⟩ := modBuffer_moves (u.raise (.linesReturned r b.lap .shortPick 1)) r h fun b =>
        b.shortPicked k y n
      rw [State.raise_buffer, buffer] at other changed
      rw [State.raise_route, route] at own
      refine ⟨_, exec_replies (i := .shortPick .sp r.val lap k n) hs rfl (by decide) owner, reply_answers (by rw [returned]; rfl),
        by rw [returned]; rfl, fun q hq => (others q hq).trans (route q), other, own, ?_, ?_⟩
      · rw [reply_buffer, changed]; rfl
      · rw [reply_buffer, changed]
        exact ⟨fun z hz => PerSize.get_modify_ne _ _ hz, PerSize.get_modify_self ..⟩
    · exact exec_onlyAnswers (i := .shortPick .sp r.val lap k n) hs rfl (by decide) (shortPick_badArg awake named waiting bad)
    · have away : b.state ≠ .offered ∧ b.state ≠ .picking := by obtain e | e := away <;> rw [e] <;> decide
      obtain rfl | ⟨k, n, rfl⟩ := which
      · exact exec_onlyAnswers (i := .loadConfirm .sp r.val lap) hs rfl (by decide)
          ((loadConfirm_taken awake named).trans (if_neg (by tauto)))
      · exact exec_onlyAnswers (i := .shortPick .sp r.val lap k n) hs rfl (by decide) (shortPick_wrongState awake named away)
  · obtain rfl | rfl | ⟨k, m, rfl⟩ := which <;> exact exec_onlyAnswers hs rfl (by decide) (if_pos cold)
  · obtain rfl | rfl | ⟨k, m, rfl⟩ := which <;>
      exact exec_onlyAnswers hs rfl (by decide) ((if_neg awake).trans (atManifest_badArg hn))
  · subst hr
    obtain rfl | rfl | ⟨k, m, rfl⟩ := which <;>
      exact exec_onlyAnswers hs rfl (by decide) ((if_neg awake).trans (atManifest_notFound missing))
end

section
/-!
PROOFS: the demand queue's operations in full, each said once: what a creation, a merge and a refusal leave in the queue, the notices
and the slot; then draws, evaluations, returns, deliveries, TOPUP and CANCEL_DEMAND as their rules name them.
-/

namespace Sys2Proof.Machine

open Sys2Proof

variable (s : State) (i : SlotId) (n : Nat) (cls : DemandClass)

/-! ## The queue's operations in full -/

theorem State.raiseIf_queues_congr {s t : State} {c : Prop} [Decidable c] {e : Event} (hq : s.queues = t.queues)
    (hp : s.plant = t.plant) : (if c then s.raise e else s).queues = (if c then t.raise e else t).queues := by
  split
  · exact State.raise_queues_congr hq hp e
  · exact hq

/-- The next creation brings the count to W while QUEUE_HIGH is armed (R59). -/
abbrev DemandQueue.BringsHigh (d : DemandQueue) : Prop := d.lines.length + 1 = d.watermark ∧ d.highArmed = true

/-- UNCOVERED is raised where the slot maps to no route (R57). -/
def State.tellUncovered : State := if (s.mapSlot i).isNone = true then s.raise (.uncovered i n) else s

/-- The notices of a creation: UNCOVERED, then QUEUE_HIGH (R57, R59). -/
def State.tellCreated : State :=
  if s.demand.BringsHigh then (s.tellUncovered i n).raise (.queueHigh i s.demand.watermark) else s.tellUncovered i n

/-- The queue after a creation (R46, R59). -/
def DemandQueue.withLine (d : DemandQueue) (x : DemandLine) : DemandQueue :=
  { d with lines := d.lines ++ [x], highArmed := d.highArmed && !decide d.BringsHigh }

/-- The queue after a merge (R47). -/
def DemandQueue.merged (d : DemandQueue) (i : SlotId) (n : Nat) (cls : DemandClass) : DemandQueue :=
  { d with lines := d.lines.map fun y =>
      if y.slot = i then { y with containers := y.containers + n, cls := y.cls.better cls } else y }

theorem DemandQueue.withLine_highArmed (d : DemandQueue) (x : DemandLine) :
    (d.withLine x).highArmed = (d.highArmed && decide (d.lines.length + 1 ≠ d.watermark)) := by
  cases armed : d.highArmed <;> simp [DemandQueue.withLine, armed]

theorem State.mergeOpen_eq : s.mergeOpen i n cls = { s with demand := s.demand.merged i n cls } := by
  simp only [State.mergeOpen, State.modOpen, State.modDemand, DemandQueue.merged, beq_iff_eq]

theorem State.judgeHigh_eq (t : State) : t.judgeHigh i = { t with
    demand := { t.demand with
      highArmed := t.demand.highArmed && !decide (t.demand.lines.length = t.demand.watermark ∧ t.demand.highArmed = true) }
    queues := (if t.demand.lines.length = t.demand.watermark ∧ t.demand.highArmed = true then
      t.raise (.queueHigh i t.demand.watermark) else t).queues } := by
  unfold State.judgeHigh
  split
  next high => simp [State.modDemand, State.raise, high]
  next low => simp [low]

/-- A creation, in full (R46, R57, R59). -/
theorem State.createOpen_eq : s.createOpen i n cls = { s with
    slots := s.slots.set i { s.slot i with blocked := false }
    demand := s.demand.withLine (s.newOpen i n cls)
    queues := (s.tellCreated i n).queues } := by
  have first (t : State) : (if (s.mapSlot i).isNone then t.raise (.uncovered i n) else t) =
      { t with queues := (if (s.mapSlot i).isNone then t.raise (.uncovered i n) else t).queues } := by split <;> rfl
  have told {t : State} (hq : t.queues = s.queues) (hp : t.plant = s.plant) :
      (if (s.mapSlot i).isNone then t.raise (.uncovered i n) else t).queues = (s.tellUncovered i n).queues :=
    State.raiseIf_queues_congr hq hp
  unfold State.createOpen
  dsimp only
  rw [first, told (t := (s.modDemand _).modSlot i _) rfl rfl, State.judgeHigh_eq]
  unfold State.tellCreated
  simp only [State.modSlot, State.modDemand, List.length_append, List.length_singleton]
  congr 1
  apply State.raiseIf_queues_congr (by rfl)
  change s.plant = (s.tellUncovered i n).plant
  unfold State.tellUncovered; split <;> rfl

/-- A refusal to create a line, in full (R60). -/
theorem State.refuseLine_eq (cause : FullCause) : s.refuseLine i cause n = { s with
    demand := { s.demand with fullArmed := false }
    queues := (if s.demand.fullArmed = true then s.raise (.queueFull i cause n) else s).queues } := by
  unfold State.refuseLine
  split
  · rfl
  next quiet =>
    have unarmed : s.demand.fullArmed = false := Bool.eq_false_iff.mpr quiet
    have same : { s.demand with fullArmed := false } = s.demand := by rw [← unarmed]
    rw [same]

/-! ## One slot's record, written again -/

/-- Two changes of one slot come to one. -/
theorem State.modSlot_of_set {s u : State} {i : SlotId} {y : Slot} (h : u.slots = s.slots.set i y) (f : Slot → Slot) :
    u.modSlot i f = { u with slots := s.slots.set i (f y) } := by
  unfold State.modSlot
  rw [h]
  simp

theorem State.slot_of_set {s u : State} {i : SlotId} {y : Slot} (h : u.slots = s.slots.set i y) : u.slot i = y := by
  simp [State.slot, h]

theorem State.others_of_set {s u : State} {i : SlotId} {y : Slot} (h : u.slots = s.slots.set i y) : OnlySlot s u i := fun j hj => by
  unfold State.slot
  rw [h]
  simp [Fin.val_ne_of_ne hj.symm]

/-! ## Draws, orders and evaluations -/

/-- A slot ordered for: ordered rises and ORDER_BLOCKED clears (R46, R47). -/
def Slot.ordering (x : Slot) (n : Nat) : Slot := { x with ordered := x.ordered + n, blocked := false }

/-- A slot's line is created for an order or a top-up (R46, R48). -/
theorem State.created_eq : (s.createOpen i n cls).raiseOrdered i n = { s with
    slots := s.slots.set i ((s.slot i).ordering n)
    demand := s.demand.withLine (s.newOpen i n cls)
    queues := (s.tellCreated i n).queues } := by
  have slots : (s.createOpen i n cls).slots = s.slots.set i { s.slot i with blocked := false } := by rw [State.createOpen_eq]
  rw [State.raiseOrdered, State.modSlot_of_set slots, State.createOpen_eq]
  rfl

theorem State.order_merged {d : DemandLine} (line : s.openLine i = some d) : s.order i n = { s with
    slots := s.slots.set i ((s.slot i).ordering n), demand := s.demand.merged i n .kanban } := by
  unfold State.order
  have slots : ((s.mergeOpen i n .kanban).raiseOrdered i n).slots
      = s.slots.set i { s.slot i with ordered := (s.slot i).ordered + n } := rfl
  rw [if_pos (by rw [line]; rfl), State.modSlot_of_set slots, State.mergeOpen_eq]
  rfl

theorem State.order_created (fresh : s.openLine i = none) (room : s.demand.lines.length < 112) :
    s.order i n = (s.createOpen i n .kanban).raiseOrdered i n := by
  unfold State.order
  rw [if_neg (by rw [fresh]; decide), if_pos room]

theorem State.order_refused (fresh : s.openLine i = none) (full : 112 ≤ s.demand.lines.length) : s.order i n = { s with
    slots := s.slots.set i { s.slot i with blocked := true }
    demand := { s.demand with ordersRefused := bump s.demand.ordersRefused, fullArmed := false }
    queues := (if s.demand.fullArmed = true then s.raise (.queueFull i .order n) else s).queues } := by
  unfold State.order
  rw [if_neg (by rw [fresh]; decide), if_neg (Nat.not_lt.mpr full), State.refuseLine_eq]
  let u : State := { s with
    slots := s.slots.set i { s.slot i with blocked := true }
    demand := { s.demand with ordersRefused := bump s.demand.ordersRefused } }
  rw [← State.raiseIf_queues_congr (s := u) (t := s) rfl rfl]
  rfl

/-- A draw above 0: the record, SHORTFALL where the slot first empties, then the evaluation (R14, R15, R18). -/
theorem State.applyDraw_eq {d : Nat} (seq : SeqNo) (hd : d ≠ 0) : s.applyDraw i d seq = s.charge i d seq := by
  have oh : ((s.slot i).drawn d).oh = 0 ↔ (s.slot i).oh ≤ d := Nat.sub_eq_zero_iff_le
  have short : ((s.slot i).drawn d).short = (s.slot i).short := rfl
  unfold State.applyDraw
  simp only [if_neg hd, oh, short, State.charge]
  split
  next first =>
    have wrote : (s.modSlot i fun x => x.drawn d).modSlot i (fun x => { x with short := true })
        = { s with slots := s.slots.set i ((s.slot i).charged d) } := by
      rw [State.modSlot_of_set (s := s) rfl]
      have charged : { (s.slot i).drawn d with short := true } = (s.slot i).charged d := by
        simp only [Slot.charged, first.1, decide_true, Bool.or_true]
        rfl
      exact congrArg (fun y => { s with slots := s.slots.set i y }) charged
    rw [wrote]
    rfl
  next later =>
    have kept : ((s.slot i).short || decide ((s.slot i).oh ≤ d)) = (s.slot i).short := by
      cases h : (s.slot i).short with
      | true => rfl
      | false => simpa [h] using later
    congr 1
    simp only [State.modSlot, Slot.charged, kept]
    rfl

/-! ## Returns -/

/-- Containers trimmed off a return leave ordered and are counted as dropped (R54). -/
def State.trim : State := (s.lowerOrdered i n).countDropped n

theorem State.trim_eq : s.trim i n = { s with
    slots := s.slots.set i { s.slot i with ordered := (s.slot i).ordered - n }
    demand := { s.demand with returnsDropped := bumpBy n s.demand.returnsDropped } } := rfl

theorem State.trim_trim (k : Nat) : (s.trim i k).trim i n = s.trim i (k + n) := by
  rw [State.trim_eq, State.trim_eq s i k, State.trim_eq]
  simp only [State.slot, bumpBy, Vector.set_set, Fin.getElem_fin, Vector.getElem_set_self, Nat.sub_sub]
  congr 2
  omega

theorem State.trim_zero (h : s.demand.returnsDropped ≤ 65535) : s.trim i 0 = s := by
  rw [State.trim_eq]
  have slots : s.slots.set i { s.slot i with ordered := (s.slot i).ordered - 0 } = s.slots := Vector.set_getElem_self _
  have counted : { s.demand with returnsDropped := bumpBy 0 s.demand.returnsDropped } = s.demand := by
    rw [show bumpBy 0 s.demand.returnsDropped = s.demand.returnsDropped from Nat.min_eq_left h]
  rw [slots, counted]

theorem State.trim_mapSlot : (s.trim i n).mapSlot i = s.mapSlot i :=
  ((lowerOrdered_moves i s n).trans (countDropped_moves i _ n)).mapSlot i

/-- A return to a KANBAN slot that is not INACTIVE: what stands above MC is trimmed off, the rest is placed (R54). -/
theorem State.returnBins_trims (kanban : (s.slot i).cfg.kind = .kanban) (live : (s.slot i).cfg.status ≠ .inactive) (low : 1 ≤ n)
    (dropped : s.demand.returnsDropped ≤ 65535) :
    let cut := min n ((s.slot i).ordered - (s.slot i).cfg.mc)
    s.returnBins i n cls = if cut < n then (s.trim i cut).placeReturn i (n - cut) cls else s.trim i n := by
  intro cut
  have least : cut ≤ n := Nat.min_le_left ..
  unfold State.returnBins
  simp only [kanban]
  split
  · change (if n - cut = 0 then s.trim i cut else (s.trim i cut).placeReturn i (n - cut) cls) = _
    by_cases part : cut < n
    · rw [if_pos part, if_neg (by omega)]
    · rw [if_neg part, if_pos (by omega), show cut = n by omega]
  · have uncut : cut = 0 := by simp only [cut]; omega
    rw [uncut, if_pos (by omega), State.trim_zero s i dropped, Nat.sub_zero]

theorem State.placeReturn_merged {d : DemandLine} (line : s.openLine i = some d) :
    s.placeReturn i n cls = { s with demand := s.demand.merged i n cls } := by
  unfold State.placeReturn
  rw [if_pos (by rw [line]; rfl), State.mergeOpen_eq]

theorem State.placeReturn_created (fresh : s.openLine i = none) (room : s.demand.lines.length < 128) :
    s.placeReturn i n cls = s.createOpen i n cls := by
  unfold State.placeReturn
  rw [if_neg (by rw [fresh]; decide), if_pos room]

theorem State.placeReturn_dropped (fresh : s.openLine i = none) (full : 128 ≤ s.demand.lines.length) :
    s.placeReturn i n cls = (s.trim i n).refuseLine i .return n := by
  unfold State.placeReturn
  rw [if_neg (by rw [fresh]; decide), if_neg (Nat.not_lt.mpr full)]
  rfl

/-- The notices of a creation after a trim are those of the creation alone. -/
theorem State.trim_tellCreated (k : Nat) : ((s.trim i k).tellCreated i n).queues = (s.tellCreated i n).queues := by
  have told : ((s.trim i k).tellUncovered i n).queues = (s.tellUncovered i n).queues := by
    unfold State.tellUncovered
    rw [State.trim_mapSlot]
    exact State.raiseIf_queues_congr rfl rfl
  have plant (u : State) : (u.tellUncovered i n).plant = u.plant := by unfold State.tellUncovered; split <;> rfl
  exact State.raiseIf_queues_congr told (by rw [plant, plant]; rfl)

/-- A return for which a line is created (R53, R57, R59). -/
theorem State.trim_createOpen (k : Nat) : (s.trim i k).createOpen i n cls = { s with
    slots := s.slots.set i { s.slot i with ordered := (s.slot i).ordered - k, blocked := false }
    demand := { s.demand.withLine (s.newOpen i n cls) with returnsDropped := bumpBy k s.demand.returnsDropped }
    queues := (s.tellCreated i n).queues } := by
  have line : (s.trim i k).newOpen i n cls = s.newOpen i n cls := by
    unfold State.newOpen
    rw [State.trim_mapSlot]
    rfl
  rw [State.createOpen_eq, line, State.trim_tellCreated, State.trim_eq]
  simp [State.slot]
  rfl

/-! ## Deliveries -/

/-- What a bin leaves in a KANBAN slot's record before its evaluation (R16). -/
def Slot.filled (x : Slot) : Slot :=
  let sum := x.oh + x.cfg.cq * 1000
  let full := x.cfg.mc * x.cfg.cq * 1000
  let oh := if full < sum then full else sum
  { x with
    oh := oh, ordered := x.ordered - 1, short := x.short && decide (oh = 0)
    overfills := if full < sum then min (x.overfills + 1) 65535 else x.overfills }

theorem Slot.delivered_eq (x : Slot) : x.delivered = x.filled := by
  have oh : min (x.oh + x.cfg.cq * 1000) x.cfg.fullMp
      = if x.cfg.mc * x.cfg.cq * 1000 < x.oh + x.cfg.cq * 1000 then x.cfg.mc * x.cfg.cq * 1000 else x.oh + x.cfg.cq * 1000 := by
    unfold SlotConfig.fullMp
    split <;> omega
  unfold Slot.delivered Slot.filled
  simp only [oh]
  rfl

theorem State.deliverBin_eq (kanban : (s.slot i).cfg.kind = .kanban) :
    s.deliverBin i = State.evaluate { s with slots := s.slots.set i (s.slot i).filled } i := by
  unfold State.deliverBin
  rw [if_neg (by rw [kanban]; decide), ← Slot.delivered_eq]
  rfl

theorem Marks.delivers_eq (m : Marks) (last : SeqNo) : m.delivers last =
    let d := if seqAfter last m.delivered then last else m.delivered
    ⟨if seqAfter d m.covered then d else m.covered, d⟩ := by
  unfold Marks.delivers
  rfl

/-! ## TOPUP and CANCEL_DEMAND -/

section

variable {s i} {n : Byte}

/-- The containers that a top-up grants (R48). -/
def State.grant (s : State) (i : SlotId) (n : Byte) : Nat := min n.toNat ((s.slot i).cfg.mc - (s.slot i).ordered)

theorem topup_cold (cold : s.mode = .cold) (k : Nat) : topup .ep k n s = reply .ep .notActive .empty s := if_pos cold

theorem topup_slot (awake : s.mode ≠ .cold) {k : Nat} (hk : 191 < k) : topup .ep k n s = reply .ep .badArg .empty s := by
  unfold topup
  rw [if_neg awake, slotOf_eq_none hk]

theorem topup_none (awake : s.mode ≠ .cold) : topup .ep i.val 0 s = reply .ep .badArg .empty s := by
  unfold topup
  rw [if_neg awake, slotOf_val]
  rfl

theorem topup_wrongState (awake : s.mode ≠ .cold) (some_asked : n ≠ 0)
    (h : (s.slot i).cfg.kind = .sequenced ∨ (s.slot i).cfg.status = .inactive) :
    topup .ep i.val n s = reply .ep .wrongState .empty s := by
  unfold topup
  rw [if_neg awake, slotOf_val]
  dsimp only
  rw [if_neg some_asked, if_pos h]

/-- A top-up of a KANBAN slot that is not INACTIVE, by its last tests (R48). -/
theorem topup_tested (awake : s.mode ≠ .cold) (some_asked : n ≠ 0) (kanban : (s.slot i).cfg.kind = .kanban)
    (live : (s.slot i).cfg.status ≠ .inactive) : topup .ep i.val n s =
      if s.grant i n = 0 then reply .ep .atMax (.limit .slot) s
      else if (s.openLine i).isSome then
        reply .ep .ok (.granted (s.grant i n)) ((s.mergeOpen i (s.grant i n) .topup).raiseOrdered i (s.grant i n))
      else if s.demand.lines.length < 112 then
        reply .ep .ok (.granted (s.grant i n)) ((s.createOpen i (s.grant i n) .topup).raiseOrdered i (s.grant i n))
      else reply .ep .atMax (.limit .queue) (s.refuseLine i .topup (s.grant i n)) := by
  unfold topup
  rw [if_neg awake, slotOf_val]
  dsimp only
  rw [if_neg some_asked, if_neg (by simp [kanban, live])]
  rfl

theorem cancelDemand_slot {k : Nat} (hk : 191 < k) : cancelDemand .ep k s = reply .ep .badArg .empty s := by
  unfold cancelDemand
  rw [slotOf_eq_none hk]

theorem cancelDemand_fresh (fresh : s.openLine i = none) :
    cancelDemand .ep i.val s = reply .ep .ok (.demandCancelled 0 none) s := by
  unfold cancelDemand
  rw [slotOf_val]
  dsimp only
  rw [fresh]

theorem cancelDemand_line {d : DemandLine} (line : s.openLine i = some d) : cancelDemand .ep i.val s =
    reply .ep .ok (.demandCancelled d.containers (some d.cls)) ((s.removeOpen i).lowerOrdered i d.containers) := by
  unfold cancelDemand
  rw [slotOf_val]
  dsimp only
  rw [line]

end

end Sys2Proof.Machine

open Sys2Proof Sys2Proof.Machine

/-- Settles O35: an evaluation comes to nothing, or to one of the three outcomes of an order. -/
theorem drawnSlotReportsAndOrders : Obligations.DrawnSlotReportsAndOrders := by
  refine ⟨fun s i d seq => ⟨fun hd => ?_, fun hd empty first => ?_, fun hd later => ?_⟩, fun s i seq => State.evaluate_sequenced seq,
    fun s i kanban range bounded => ?_⟩
  · simp [State.applyDraw, hd]
  · exact (State.applyDraw_eq s i seq hd).trans (congrArg (State.evaluate · i) (if_pos ⟨empty, first⟩))
  · refine (State.applyDraw_eq s i seq hd).trans (congrArg (State.evaluate · i) (if_neg fun ⟨empty, first⟩ => ?_))
    rcases later with some_left | short
    · omega
    · rw [first] at short; cases short
  have moves := evaluate_moves i s
  refine ⟨moves.rest, moves.others, fun quiet => ?_, fun active free low => ?_⟩
  · rw [State.evaluate_quiet kanban quiet]
    exact ⟨State.slot_modSlot_self .., rfl, rfl⟩
  obtain ⟨size, least, most⟩ := Slot.orderSize_eq range bounded low
  rw [State.evaluate_orders kanban active free low]
  have size : (s.slot i).orderSize = ((s.slot i).cfg.mc * (s.slot i).cfg.cq * 1000 -
    ((s.slot i).oh + (s.slot i).ordered * (s.slot i).cfg.cq * 1000)) / ((s.slot i).cfg.cq * 1000) := size
  rw [← size]
  refine ⟨least, most, fun d line => ?_, fun fresh room => ?_, fun fresh full => ?_⟩
  · rw [State.order_merged s i _ line]
    exact ⟨State.slot_of_set rfl, rfl, rfl⟩
  · rw [State.order_created s i _ fresh room, State.created_eq]
    exact ⟨State.slot_of_set rfl, rfl, rfl⟩
  · rw [State.order_refused s i _ fresh full]
    exact ⟨State.slot_of_set rfl, rfl, rfl⟩

/-- Settles O41: a return trims, then merges, creates or drops. -/
theorem returnedLinesGoBackByTheirKind : Obligations.ReturnedLinesGoBackByTheirKind := by
  refine ⟨fun s y n cls => ⟨fun c bin => ?_, fun a b k rack => ?_⟩, fun s i n cls low dropped => ?_⟩
  · unfold State.returnLine; rw [bin]
  · have back : s.returnLine y n cls = s.rollback y.slot := by unfold State.returnLine; rw [rack]
    intro t
    change t = _ at back
    rw [back]
    exact ⟨rfl, fun j hj => State.slot_modSlot_ne _ _ hj, State.slot_modSlot_self ..⟩
  have moves := returnBins_moves i s n cls
  refine ⟨moves.others, moves.own, moves.rest, fun sequenced => ?_, fun kanban dead => ?_, fun kanban live part => ?_,
    fun kanban live whole => ?_⟩
  · unfold State.returnBins; simp only [sequenced]; rfl
  · have trimmed : s.returnBins i n cls = s.trim i n := by unfold State.returnBins; simp only [kanban, dead]; rfl
    rw [trimmed, State.trim_eq]
    exact ⟨State.slot_of_set rfl, rfl, rfl⟩
  · rw [State.returnBins_trims s i n cls kanban live low dropped, if_pos part]
    refine ⟨fun d line => ?_, fun fresh room => ?_, fun fresh full => ?_⟩
    · rw [State.placeReturn_merged (s.trim i _) i _ cls line]
      exact ⟨State.slot_of_set rfl, rfl, rfl⟩
    · rw [State.placeReturn_created (s.trim i _) i _ cls fresh room, State.trim_createOpen]
      refine ⟨State.slot_of_set rfl, ?_, ?_⟩
      · rw [← DemandQueue.withLine_highArmed s.demand (s.newOpen i _ cls)]; rfl
      · simp only [State.tellCreated, State.tellUncovered, Option.isNone_iff_eq_none]
    · rw [State.placeReturn_dropped (s.trim i _) i _ cls fresh full, State.trim_trim, Nat.add_sub_of_le (Nat.min_le_left ..),
        State.refuseLine_eq]
      refine ⟨State.slot_of_set rfl, rfl, ?_⟩
      exact apply_ite State.queues ..
  · rw [State.returnBins_trims s i n cls kanban live low dropped, if_neg (Nat.not_lt.mpr whole), State.trim_eq]
    exact ⟨State.slot_of_set rfl, rfl, rfl⟩

/-- Settles O46. -/
theorem deliveryReachesItsSlot : Obligations.DeliveryReachesItsSlot := by
  refine fun s y => ⟨s.deliverLine_only y, fun c bin => ?_, fun a last n rack => ?_⟩
  · have reaches : s.deliverLine y = s.deliverBin y.slot := by unfold State.deliverLine; rw [bin]
    rw [reaches]
    refine ⟨fun sequenced => if_pos sequenced, fun kanban => ?_⟩
    rw [State.deliverBin_eq s y.slot kanban]
    have filled : State.slot { s with slots := s.slots.set y.slot (s.slot y.slot).filled } y.slot = (s.slot y.slot).filled :=
      State.slot_of_set rfl
    have own := (evaluate_moves y.slot { s with slots := s.slots.set y.slot (s.slot y.slot).filled }).own
    rw [filled] at own
    refine ⟨rfl, own, fun quiet => ?_⟩
    rw [State.evaluate_quiet (by rw [filled]; exact kanban) (by rw [filled]; exact quiet.imp_right .inl)]
    exact ⟨by rw [State.slot_modSlot_self, filled]; rfl, rfl⟩
  · have reaches : s.deliverLine y = s.deliverRack y.slot last := by unfold State.deliverLine; rw [rack]
    rw [reaches]
    have own : (s.deliverRack y.slot last).slot y.slot
        = { s.slot y.slot with marks := (s.slot y.slot).marks.map fun m => m.delivers last } := State.slot_modSlot_self ..
    refine ⟨rfl, fun bare => ?_, fun m anchored => ?_⟩
    · have unmoved : (s.slot y.slot).marks.map (fun m => m.delivers last) = (s.slot y.slot).marks := by rw [bare]; rfl
      rw [own, unmoved]
    · rw [own, anchored, Option.map_some, Marks.delivers_eq]

/-- Settles O58, test by test. -/
theorem topupAndCancelMoveOneSlotsDemand : Obligations.TopupAndCancelMoveOneSlotsDemand := by
  intro s i n hs x g c moved
  refine ⟨?_, fun a b => by cases a <;> cases b <;> rfl, fun cold => ?_, fun awake => ⟨?_, fun k hk => ?_, fun asked wrong => ?_, fun asked kanban live =>
    ⟨fun full => ?_, fun grants d line => ?_, fun grants fresh room => ?_, fun grants fresh full => ?_⟩⟩,
    fun k hk => ?_, fun fresh => ?_, fun d line => ?_⟩
  · exact find?_congr fun y _ => beq_eq_decide ..
  · exact exec_onlyAnswers (i := .topup .ep i.val n) hs rfl rfl (topup_cold cold _)
  · rintro rfl
    exact exec_onlyAnswers (i := .topup .ep i.val 0) hs rfl rfl (topup_none awake)
  · exact exec_onlyAnswers (i := .topup .ep k n) hs rfl rfl (topup_slot awake hk)
  · exact exec_onlyAnswers (i := .topup .ep i.val n) hs rfl rfl (topup_wrongState awake asked wrong)
  · exact exec_onlyAnswers (i := .topup .ep i.val n) hs rfl rfl ((topup_tested awake asked kanban live).trans (if_pos full))
  · have owner : takeOwner (.topup .ep i.val n) s = _ := (topup_tested awake asked kanban live).trans
      ((if_neg grants).trans (if_pos (by rw [line]; rfl)))
    rw [State.mergeOpen_eq] at owner
    exact ⟨_, exec_replies (i := .topup .ep i.val n) hs rfl rfl owner, reply_answers rfl, rfl, rfl,
      fun j hj => by rw [reply_slot]; exact State.slot_modSlot_ne _ _ hj,
      by rw [reply_slot]; exact State.slot_modSlot_self ..⟩
  · have owner : takeOwner (.topup .ep i.val n) s = _ := (topup_tested awake asked kanban live).trans
      ((if_neg grants).trans ((if_neg (by rw [fresh]; decide)).trans (if_pos room)))
    rw [State.created_eq] at owner
    exact ⟨_, exec_replies (i := .topup .ep i.val n) hs rfl rfl owner, reply_answers rfl, rfl, rfl,
      fun j hj => by rw [reply_slot]; exact State.others_of_set rfl j hj,
      by rw [reply_slot]; exact State.slot_of_set rfl⟩
  · have owner : takeOwner (.topup .ep i.val n) s = _ := (topup_tested awake asked kanban live).trans
      ((if_neg grants).trans ((if_neg (by rw [fresh]; decide)).trans (if_neg (Nat.not_lt.mpr full))))
    rw [State.refuseLine_eq] at owner
    exact ⟨_, exec_replies (i := .topup .ep i.val n) hs rfl rfl owner, reply_answers rfl, ⟨rfl, fun _ _ => rfl, rfl⟩, rfl⟩
  · exact exec_onlyAnswers (i := .cancelDemand .ep k) hs rfl rfl (cancelDemand_slot hk)
  · exact exec_onlyAnswers (i := .cancelDemand .ep i.val) hs rfl rfl (cancelDemand_fresh fresh)
  · refine ⟨_, exec_replies (i := .cancelDemand .ep i.val) hs rfl rfl (cancelDemand_line line), reply_answers rfl, rfl, ?_⟩
    have rest : (s.demand.lines.filter fun y => y.slot != i) = s.demand.lines.filter fun y => decide (y.slot ≠ i) :=
      List.filter_congr fun y _ => by simp [bne, beq_eq_decide]
    refine ⟨?_, fun j hj => by rw [reply_slot]; exact State.slot_modSlot_ne _ _ hj,
      by rw [reply_slot]; exact State.slot_modSlot_self ..⟩
    rw [← rest]
    rfl

end

section
/-!
PROOFS: engineering's requests that move the plan, the diverts and the mode, and ANNOUNCE.
-/

namespace Sys2Proof.Machine

open Sys2Proof

variable {s : State}

/-! ## Arming and cancelling an apply -/

theorem isArmed_idle (idle : s.applyState = .idle) : s.isArmed = false := by rw [State.isArmed, idle]; rfl

theorem isArmed_armed {l : Line} (armed : s.applyState = .armed l) : s.isArmed = true := by rw [State.isArmed, armed]; rfl

theorem applyRequest_arms (idle : s.applyState = .idle) (l : Line) :
    applyRequest .ep (some .atMark) (some l) s = reply .ep .ok .empty { s with applyState := .armed l } :=
  if_neg (by rw [isArmed_idle idle]; decide)

theorem applyRequest_now (idle : s.applyState = .idle) (line : Option Line) : applyRequest .ep (some .immediate) line s =
    reply .ep .ok (.changed s.changedSlots.length) (s.applyImage none .immediate 0) :=
  if_neg (by rw [isArmed_idle idle]; decide)

/-! ## Windows -/

/-- A code hits a window by its bits (R64). -/
theorem Window.hits_iff (w : Window) (code : Location) : w.hits code = true ↔
    w.enabled = true ∧ ∀ b, b < 24 → w.mask.getLsbD b = true → code.getLsbD b = w.base.getLsbD b := by
  unfold Window.hits
  rw [Bool.and_eq_true, beq_iff_eq]
  refine and_congr_right fun _ => ⟨fun same b _ masked => ?_, fun same => BitVec.eq_of_getLsbD_eq fun b hb => ?_⟩
  · have := congrArg (BitVec.getLsbD · b) same
    simpa [masked] using this
  · cases masked : w.mask.getLsbD b with
    | false => simp [masked]
    | true => simp [masked, same b hb masked]

/-- A window's raw stop, by the code's number (R66). -/
theorem Window.rawStop_eq (w : Window) (code : Location) : w.rawStop code =
    match w.spread with | none => w.stopBase | some p => w.stopBase + code.toNat / 2 ^ p % 16 := by
  unfold Window.rawStop
  cases w.spread with
  | none => rfl
  | some p => simp [BitVec.extractLsb', Nat.shiftRight_eq_div_pow]

/-- A table's entries in index order are its list. -/
theorem Vector.map_finRange {α : Type} {n : Nat} (xs : Vector α n) : (List.finRange n).map (fun k => xs[k]) = xs.toList := by
  apply List.ext_getElem
  · simp
  · intro i h1 h2
    simp

/-- The first entry that passes a test, by its place. -/
theorem find?_first {α : Type} {p : α → Bool} : ∀ {xs : List α} {j : Nat} {x : α}, xs[j]? = some x → p x = true →
    (∀ (i : Nat) (y : α), i < j → xs[i]? = some y → p y = false) → xs.find? p = some x
  | [], j, x, at_j, _, _ => by cases at_j
  | y :: ys, 0, x, at_j, hit, _ => by
    obtain rfl : y = x := by simpa using at_j
    exact List.find?_cons_of_pos hit
  | y :: ys, j + 1, x, at_j, hit, before => by
    rw [List.find?_cons_of_neg (by simp [before 0 y (Nat.zero_lt_succ j) rfl])]
    exact find?_first at_j hit fun i z hi hz => before (i + 1) z (Nat.succ_lt_succ hi) hz

theorem setDivert_ok (k : Fin 4) {f : WindowFields} {w : Window} (fields : stagedWindow? f = some w) :
    setDivert .ep k.val f s = reply .ep .ok (.stagedWindow w) { s with diverts := s.diverts.set k w } := by
  unfold setDivert
  rw [dif_pos k.isLt, fields]

theorem setDivert_badArg {n : Nat} {f : WindowFields} (h : 3 < n ∨ 5 < f.route) :
    setDivert .ep n f s = reply .ep .badArg .empty s := by
  unfold setDivert
  rcases h with hn | hr
  · rw [dif_neg (by omega)]
  · have fields : stagedWindow? f = none := by simp [stagedWindow?, routeOf_eq_none hr]
    rw [fields]
    split <;> simp_all

/-! ## Announcing -/

/-- The state that takes an announced unit: an unanchored line's slots anchored first (R27, R28). -/
def State.anchored (s : State) (l : Line) (seq : SeqNo) : State := if (s.seq l).last = none then s.anchor l seq else s

theorem State.anchored_seq (s : State) (l : Line) (seq : SeqNo) (k : Line) : (s.anchored l seq).seq k = s.seq k := by
  unfold State.anchored; split <;> rfl

theorem State.anchored_slot (s : State) (l : Line) (seq : SeqNo) (i : SlotId) : (s.anchored l seq).slot i =
    if (s.seq l).last = none ∧ (s.slot i).cfg.kind = .sequenced ∧ (s.slot i).cfg.line = l then
      { s.slot i with marks := some ⟨seq - 1, seq - 1⟩ } else s.slot i := by
  unfold State.anchored
  by_cases bare : (s.seq l).last = none
  · rw [if_pos bare, State.anchor_slot]; simp [bare]
  · rw [if_neg bare]; simp [bare]

section

variable {l : Line} {seq : SeqNo} {n : Nat} {mark : Bool}

theorem announce_ok {v : Variant} (active : s.mode = .active) (room : (s.seq l).units.length < 64)
    (order : (s.seq l).last = none ∨ (s.seq l).last = some (seq - 1)) :
    announce .lp (some l) seq v.val mark s = reply .lp .ok (.announced ((s.seq l).units.length + 1))
      ((s.anchored l seq).modSeq l fun q => q.append ⟨seq, v, mark⟩) := by
  unfold announce State.anchored
  simp only [active, ne_eq, not_true_eq_false, if_false, variantOf_val, if_neg (Nat.not_le.mpr room)]
  rcases order with bare | next
  · rw [bare, if_pos rfl]
  · rw [next, if_neg (by simp)]
    simp

theorem announce_notActive (idle : s.mode ≠ .active) : announce .lp (some l) seq n mark s =
    reply .lp .notActive (.sequence (s.seq l).last (s.seq l).units.length) s := if_pos idle

theorem announce_badArg (active : s.mode = .active) (hn : 31 < n) : announce .lp (some l) seq n mark s =
    reply .lp .badArg (.sequence (s.seq l).last (s.seq l).units.length) s := by
  unfold announce
  simp only [active, ne_eq, not_true_eq_false, if_false, variantOf_eq_none hn]

theorem variantOf_of_le (hn : n ≤ 31) : ∃ v : Variant, n = v.val := ⟨⟨n, by omega⟩, rfl⟩

theorem announce_listFull (active : s.mode = .active) (hn : n ≤ 31) (full : 64 ≤ (s.seq l).units.length) :
    announce .lp (some l) seq n mark s = reply .lp .listFull (.sequence (s.seq l).last (s.seq l).units.length) s := by
  obtain ⟨v, rfl⟩ := variantOf_of_le hn
  unfold announce
  simp only [active, ne_eq, not_true_eq_false, if_false, variantOf_val, if_pos full]

theorem announce_outOfOrder {last : SeqNo} (active : s.mode = .active) (hn : n ≤ 31) (room : (s.seq l).units.length < 64)
    (announced : (s.seq l).last = some last) (order : seq ≠ last + 1) :
    announce .lp (some l) seq n mark s = reply .lp .outOfOrder (.sequence (s.seq l).last (s.seq l).units.length) s := by
  obtain ⟨v, rfl⟩ := variantOf_of_le hn
  unfold announce
  simp only [active, ne_eq, not_true_eq_false, if_false, variantOf_val, if_neg (Nat.not_le.mpr room), announced, if_neg order]

end

/-! ## The mode requests -/

theorem State.ready_iff : s.ready = true ↔
    (∃ r, (s.route r).cfg.timing.enabled = true) ∧ ∃ i, (s.slot i).cfg.status = .active := by
  simp [State.ready]

theorem startRequest_cold (cold : s.mode = .cold) :
    startRequest .ep s = if s.ready then reply .ep .ok .empty (s.runReset.enter .active) else reply .ep .notReady .empty s := by
  unfold startRequest; rw [cold]

theorem startRequest_standby (standby : s.mode = .standby) : startRequest .ep s = reply .ep .ok .empty (s.enter .active) := by
  unfold startRequest; rw [standby]

theorem startRequest_active (active : s.mode = .active) : startRequest .ep s = reply .ep .ok .empty s := by
  unfold startRequest; rw [active]

theorem stopRequest_cold (cold : s.mode = .cold) : stopRequest .ep s = reply .ep .wrongState .empty s := by
  unfold stopRequest; rw [cold]

theorem stopRequest_standby (standby : s.mode = .standby) : stopRequest .ep s = reply .ep .ok .empty s := by
  unfold stopRequest; rw [standby]

theorem stopRequest_active (active : s.mode = .active) (quiet : ∀ r, (s.route r).due = none) :
    stopRequest .ep s = reply .ep .ok .empty (s.enter .standby) := by
  unfold stopRequest; rw [active]; dsimp only; rw [State.settleRoutes_quiet quiet]

theorem runResetRequest_standby (standby : s.mode = .standby) :
    runResetRequest .ep s = reply .ep .ok .empty (s.runReset.enter .standby) := by
  unfold runResetRequest; rw [standby]

theorem runResetRequest_refused (h : s.mode = .cold ∨ s.mode = .active) :
    runResetRequest .ep s = reply .ep .wrongState .empty s := by
  unfold runResetRequest; rcases h with h | h <;> rw [h]

end Sys2Proof.Machine

open Sys2Proof Sys2Proof.Machine

/-- Settles O56, by the tests of R157 and R158. -/
theorem applyIsArmedAndCancelled : Obligations.ApplyIsArmedAndCancelled := by
  refine fun s hs => ⟨fun l idle => ?_, fun l k line armed i hi => ?_, fun i hi => ?_, ?_⟩
  · exact ⟨_, exec_replies (i := .apply .ep (some .atMark) (some l)) hs rfl rfl (applyRequest_arms idle l), reply_answers rfl, rfl⟩
  · have held := isArmed_armed armed
    rcases hi with rfl | rfl
    · exact exec_onlyAnswers (i := .apply .ep (some .atMark) (some l)) hs rfl rfl (if_pos held)
    · exact exec_onlyAnswers (i := .apply .ep (some .immediate) line) hs rfl rfl (if_pos held)
  · rcases hi with ⟨line, rfl⟩ | rfl
    · exact exec_onlyAnswers (i := .apply .ep none line) hs rfl rfl rfl
    · exact exec_onlyAnswers (i := .apply .ep (some .atMark) none) hs rfl rfl rfl
  · exact ⟨_, exec_replies (i := .cancelApply .ep) hs rfl rfl rfl, reply_answers rfl, rfl⟩

/-- Settles O57. -/
theorem codesMapByTheFirstWindowHit : Obligations.CodesMapByTheFirstWindowHit := by
  refine fun s => ⟨fun _ => rfl, fun code => ?_, fun hs n f => ⟨fun k r hn hr => ?_, fun bad => ?_⟩⟩
  · intro all hit
    have tables : s.diverts.toList ++ s.coverage.toList = all := by
      simp only [all, Vector.map_finRange]
    have deciding : s.decidingWindow code = all.find? (·.hits code) := by rw [← tables]; rfl
    refine ⟨fun j w at_j hits before => ?_, fun misses => ?_⟩
    · have found : s.decidingWindow code = some w := by
        rw [deciding]
        refine find?_first at_j ((w.hits_iff code).mpr hits) fun i v hi at_i => ?_
        exact Bool.eq_false_iff.mpr fun h => before i v hi at_i ((v.hits_iff code).mp h)
      intro raw
      have stop : w.rawStop code = raw := Window.rawStop_eq w code
      unfold State.mapCode
      rw [found, Option.map_some, stop]
    · unfold State.mapCode
      rw [deciding, List.find?_eq_none.mpr fun w hw => fun h => misses w hw ((w.hits_iff code).mp h)]
      rfl
  · subst hn
    have fields : stagedWindow? f = some {
        enabled := f.enabled, base := BitVec.ofNat 24 f.base, mask := BitVec.ofNat 24 f.mask, route := r
        stopBase := min f.stopBase 15, spread := f.spread.map (min · 20) } := by
      simp [stagedWindow?, hr]
    exact ⟨_, exec_replies (i := .setDivert .ep k.val f) hs rfl rfl (setDivert_ok k fields), reply_answers rfl, rfl⟩
  · exact exec_onlyAnswers (i := .setDivert .ep n f) hs rfl rfl (setDivert_badArg bad)

/-- Settles O32, test by test. -/
theorem announceAppendsInOrder : Obligations.AnnounceAppendsInOrder := by
  refine fun s l seq n mark hs => ⟨fun v active hn room order => ?_, ⟨fun idle => ?_, fun active hn => ?_,
    fun active hn full => ?_, fun active hn room last announced order => ?_⟩, ?_⟩
  · subst hn
    refine ⟨_, exec_replies (i := .announce .lp (some l) seq v.val mark) hs rfl rfl (announce_ok active room order),
      reply_answers ?_, ?_, ?_, fun k hk => ?_, fun i => ?_⟩
    · unfold State.anchored; split <;> rfl
    · unfold State.anchored; split <;> rfl
    · rw [reply_seq, State.seq_modSeq_self, State.anchored_seq]; rfl
    · rw [reply_seq, State.seq_modSeq_ne _ _ hk, State.anchored_seq]
    · rw [reply_slot, State.modSeq_slot, State.anchored_slot]
      intro x
      split
      · rfl
      · rfl
  · exact exec_onlyAnswers (i := .announce .lp (some l) seq n mark) hs rfl rfl (announce_notActive idle)
  · exact exec_onlyAnswers (i := .announce .lp (some l) seq n mark) hs rfl rfl (announce_badArg active hn)
  · exact exec_onlyAnswers (i := .announce .lp (some l) seq n mark) hs rfl rfl (announce_listFull active hn full)
  · exact exec_onlyAnswers (i := .announce .lp (some l) seq n mark) hs rfl rfl
      (announce_outOfOrder active hn room announced order)
  · exact exec_onlyAnswers (i := .announce .lp none seq n mark) hs rfl rfl rfl

/-- Settles O60, mode by mode. -/
theorem modeRequestsMoveTheMode : Obligations.ModeRequestsMoveTheMode := by
  intro s hs ready enters resets
  have reset : resets s.runReset := by
    refine ⟨rfl, fun l => ?_, fun r => ?_, fun r h => State.runReset_buffer s r h, fun i => ?_, State.runReset_seq s, rfl,
      State.runReset_port s, fun p => ?_⟩
    · rw [State.runReset_clock]; cases hm : (s.clock l).mode <;> simp [LineClock.runReset, LineClock.write, gateOpenAt, hm]
    · rw [State.runReset_route]; exact Route.runReset_eq _
    · rw [State.runReset_slot, Slot.runReset]
      have oh : (if (s.slot i).cfg.kind = .kanban then (s.slot i).cfg.startMp else 0)
          = if (s.slot i).cfg.kind = .sequenced then 0 else (s.slot i).cfg.startMp := by
        cases (s.slot i).cfg.kind <;> rfl
      rw [oh]
      rfl
    · have judged : ({ s.queue p with items := [], marker := false, lost := 0 } : NoticeQueue).asserted
          = decide ((s.queue p).threshold = 0) := by simp [NoticeQueue.asserted]
      rw [State.runReset_queue, ← judged]
      rfl
  have asked : s.ready = true ↔ ready := State.ready_iff
  have entered (u : State) (hm : u.mode = s.mode) (m : DeviceMode) : enters u m (reply .ep .ok .empty (u.enter m)) := by
    refine ⟨reply_answers rfl, ?_⟩
    rw [← hm]
    rfl
  refine ⟨fun cold => ⟨fun ok => ?_, fun bad => ?_, ?_, ?_⟩, fun standby => ⟨?_, ?_, ?_⟩, fun active => ⟨?_, fun quiet => ?_, ?_⟩⟩
  · exact ⟨_, _, reset, exec_replies (i := .start .ep) hs rfl rfl ((startRequest_cold cold).trans (if_pos (asked.mpr ok))),
      entered s.runReset rfl _⟩
  · exact exec_onlyAnswers (i := .start .ep) hs rfl rfl ((startRequest_cold cold).trans (if_neg fun h => bad (asked.mp h)))
  · exact exec_onlyAnswers (i := .stop .ep) hs rfl rfl (stopRequest_cold cold)
  · exact exec_onlyAnswers (i := .runReset .ep) hs rfl rfl (runResetRequest_refused (.inl cold))
  · exact ⟨_, exec_replies (i := .start .ep) hs rfl rfl (startRequest_standby standby), entered s rfl _⟩
  · exact exec_onlyAnswers (i := .stop .ep) hs rfl rfl (stopRequest_standby standby)
  · exact ⟨_, _, reset, exec_replies (i := .runReset .ep) hs rfl rfl (runResetRequest_standby standby), entered s.runReset rfl _⟩
  · exact exec_onlyAnswers (i := .start .ep) hs rfl rfl (startRequest_active active)
  · exact ⟨_, exec_replies (i := .stop .ep) hs rfl rfl (stopRequest_active active quiet), entered s rfl _⟩
  · exact exec_onlyAnswers (i := .runReset .ep) hs rfl rfl (runResetRequest_refused (.inr active))

end

section
/-!
PROOFS: the staging requests. What an accepted write stores and a read answers, entry by entry, and every refusal.
-/

namespace Sys2Proof.Machine

open Sys2Proof

variable {s : State}

/-! ## Clamps -/

/-- A field held between two bounds (R156). -/
def heldIn (lo hi n : Nat) : Nat := if n < lo then lo else if hi < n then hi else n

theorem clamp_heldIn {lo hi : Nat} (h : lo ≤ hi) (n : Nat) : clamp lo hi n = heldIn lo hi n := clamp_eq h n

theorem min_heldIn (hi n : Nat) : min n hi = heldIn 0 hi n := by
  unfold heldIn
  rw [if_neg (Nat.not_lt_zero n)]
  split <;> omega

/-! ## Entries as they are staged -/

theorem sensorOf_map (sensor : Option (Fin 64)) : sensorOf? (sensor.map (·.val)) = some sensor := by
  cases sensor with
  | none => rfl
  | some n => simp [sensorOf?]

theorem sensorOf_eq_none {n : Nat} (h : 63 < n) : sensorOf? (some n) = none := dif_neg (Nat.not_lt.mpr h)

/-- An accepted slot record, with its clamps (R3 to R6). -/
theorem stagedSlot_some {f : SlotFields} {kind : SlotKind} {status : SlotStatus} {line : Line} {g : Fin 16} {z : SizeClass}
    {sensor : Option (Fin 64)} {policy : Policy} (hk : f.kind = some kind) (hst : f.status = some status) (hl : f.line = some line)
    (hg : f.group = g.val) (hz : f.size = some z) (hse : f.sensor = sensor.map (·.val)) (hp : f.policy = some policy) :
    stagedSlot? f = some {
      kind := kind, status := status, line := line, location := BitVec.ofNat 24 f.location, part := f.part, group := g
      allowance := heldIn 0 250 f.allowance, size := z, cq := heldIn 1 9999 f.cq, mc := heldIn 1 4 f.mc, rop := f.rop
      start := f.start.getD .full, sensor := sensor, eye := f.eye, band := heldIn 0 255 f.band, policy := policy
      rackSize := heldIn 1 12 f.rackSize, minLead := heldIn 0 24 f.minLead } := by
  simp only [stagedSlot?, hk, hst, hl, hg, hz, hse, hp, groupOf_val, sensorOf_map, Option.bind_eq_bind, Option.bind_some,
    Option.pure_def, min_heldIn, clamp_heldIn (show 1 ≤ 9999 by decide), clamp_heldIn (show 1 ≤ 4 by decide),
    clamp_heldIn (show 1 ≤ 12 by decide)]

theorem stagedSlot_none {f : SlotFields} (h : f.kind = none ∨ f.status = none ∨ f.line = none ∨ 15 < f.group ∨ f.size = none ∨
    f.policy = none ∨ ∃ k, f.sensor = some k ∧ 63 < k) : stagedSlot? f = none := by
  unfold stagedSlot?
  rcases h with h | h | h | h | h | h | ⟨k, hk, h⟩
  · simp [h]
  · simp [h]
  · simp [h]
  · simp [groupOf_eq_none h]
  · simp [h]
  · simp [h]
  · simp [hk, sensorOf_eq_none h]

/-- An accepted route, with its clamps (R82, R101). -/
theorem stagedRoute_some {f : RouteFields} {source : ClockSource} {m : MatchMode} (hs : f.source = some source)
    (hm : f.matchMode = some m) (low : 1 ≤ f.stops.length) (high : f.stops.length ≤ 16) : stagedRoute? f = some {
      timing := { enabled := f.enabled, source := source, period := heldIn 600 36000 f.period,
                  buildAt := f.buildAt.toNat, departAt := f.departAt.toNat }
      caps := ⟨heldIn 0 48 f.capS, heldIn 0 16 f.capM, heldIn 0 6 f.capL⟩, stops := f.stops, matchMode := m, mask := f.mask } := by
  simp only [stagedRoute?, hs, hm, Option.bind_eq_bind, Option.bind_some, Option.pure_def,
    if_neg (show ¬(f.stops.length = 0 ∨ 16 < f.stops.length) by omega), min_heldIn,
    clamp_heldIn (show 600 ≤ 36000 by decide)]

theorem stagedRoute_none {f : RouteFields} (h : f.source = none ∨ f.matchMode = none ∨ f.stops = [] ∨ 16 < f.stops.length) :
    stagedRoute? f = none := by
  unfold stagedRoute?
  rcases h with h | h | h | h
  · simp [h]
  · simp [h]
  · simp [h]
  · simp [h]

/-- An accepted window, with its clamps (R70). -/
theorem stagedWindow_some {f : WindowFields} {r : RouteId} (hr : f.route = r.val) : stagedWindow? f = some {
    enabled := f.enabled, base := BitVec.ofNat 24 f.base, mask := BitVec.ofNat 24 f.mask, route := r
    stopBase := heldIn 0 15 f.stopBase, spread := f.spread.map fun n => heldIn 0 20 n } := by
  simp only [stagedWindow?, hr, routeOf_val, Option.bind_eq_bind, Option.bind_some, Option.pure_def, min_heldIn]

theorem stagedWindow_none {f : WindowFields} (h : 5 < f.route) : stagedWindow? f = none := by
  simp [stagedWindow?, routeOf_eq_none h]

/-! ## Writes while IDLE, and while ARMED -/

theorem stageSlot_write (idle : s.applyState = .idle) (i : SlotId) {f : SlotFields} {c : SlotConfig} (h : stagedSlot? f = some c) :
    stageSlot .ep i.val (.write f) s = reply .ep .ok (.stagedSlot c) (s.modImage fun m => { m with slots := m.slots.set i c }) := by
  unfold stageSlot
  dsimp only
  rw [if_neg (by rw [isArmed_idle idle]; decide), slotOf_val, h]

theorem stageRoute_write (idle : s.applyState = .idle) (r : RouteId) {f : RouteFields} {c : RouteConfig} (h : stagedRoute? f = some c) :
    stageRoute .ep r.val (.write f) s
      = reply .ep .ok (.stagedRoute c) (s.modImage fun m => { m with routes := m.routes.set r c }) := by
  unfold stageRoute
  dsimp only
  rw [if_neg (by rw [isArmed_idle idle]; decide), routeOf_val, h]

theorem stageWindow_write (idle : s.applyState = .idle) (k : Fin 12) {f : WindowFields} {w : Window} (h : stagedWindow? f = some w) :
    stageWindow .ep k.val (.write f) s
      = reply .ep .ok (.stagedWindow w) (s.modImage fun m => { m with windows := m.windows.set k w }) := by
  unfold stageWindow
  dsimp only
  rw [if_neg (by rw [isArmed_idle idle]; decide), windowOf_val, h]

theorem stageGlobals_write (idle : s.applyState = .idle) (f : GlobalFields) : stageGlobals .ep (.write f) s =
    reply .ep .ok (.stagedGlobals (heldIn 0 7 f.ageStep) (heldIn 1 128 f.watermark))
      (s.modImage fun m => { m with ageStep := heldIn 0 7 f.ageStep, watermark := heldIn 1 128 f.watermark }) := by
  unfold stageGlobals
  dsimp only
  rw [if_neg (by rw [isArmed_idle idle]; decide), min_heldIn, clamp_heldIn (by decide)]

theorem stageUsage_write (idle : s.applyState = .idle) (l : Line) (g : Fin 16) {row : UsageRow} {k : StagedRow} {values : List Nat}
    (hk : stagedRow? row = some k) (low : 1 ≤ values.length) (high : g.val + values.length ≤ 16) :
    stageUsage .ep (some l) row g.val (.write values) s = reply .ep .ok (.stagedUsage (values.map fun n => heldIn 0 k.bound n))
      (s.modImage fun m => { m with
        usage := m.usage.modify l fun u => u.write k g.val (values.map fun n => heldIn 0 k.bound n) }) := by
  unfold stageUsage
  dsimp only
  rw [if_neg (by omega), if_neg (by rw [isArmed_idle idle]; decide), hk, groupOf_val]
  simp only [min_heldIn]

theorem stageSlot_locked (held : s.isArmed = true) (n : Nat) (f : SlotFields) :
    stageSlot .ep n (.write f) s = reply .ep .stageLocked .empty s := if_pos held

theorem stageRoute_locked (held : s.isArmed = true) (n : Nat) (f : RouteFields) :
    stageRoute .ep n (.write f) s = reply .ep .stageLocked .empty s := if_pos held

theorem stageWindow_locked (held : s.isArmed = true) (n : Nat) (f : WindowFields) :
    stageWindow .ep n (.write f) s = reply .ep .stageLocked .empty s := if_pos held

theorem stageUsage_locked (held : s.isArmed = true) (l : Option Line) (row : UsageRow) (n : Nat) {values : List Nat}
    (some_values : values.length ≠ 0) (room : n + values.length ≤ 16) :
    stageUsage .ep l row n (.write values) s = reply .ep .stageLocked .empty s :=
  (if_neg (by omega)).trans (if_pos held)

theorem stageSlot_badArg (idle : s.applyState = .idle) {n : Nat} {f : SlotFields} (h : 191 < n ∨ stagedSlot? f = none) :
    stageSlot .ep n (.write f) s = reply .ep .badArg .empty s := by
  unfold stageSlot
  dsimp only
  rw [if_neg (by rw [isArmed_idle idle]; decide)]
  rcases h with h | h
  · rw [slotOf_eq_none h]
  · rw [h]; cases slotOf? n <;> rfl

theorem stageRoute_badArg (idle : s.applyState = .idle) {n : Nat} {f : RouteFields} (h : 5 < n ∨ stagedRoute? f = none) :
    stageRoute .ep n (.write f) s = reply .ep .badArg .empty s := by
  unfold stageRoute
  dsimp only
  rw [if_neg (by rw [isArmed_idle idle]; decide)]
  rcases h with h | h
  · rw [routeOf_eq_none h]
  · rw [h]; cases routeOf? n <;> rfl

theorem stageWindow_badArg (idle : s.applyState = .idle) {n : Nat} {f : WindowFields} (h : 11 < n ∨ stagedWindow? f = none) :
    stageWindow .ep n (.write f) s = reply .ep .badArg .empty s := by
  unfold stageWindow
  dsimp only
  rw [if_neg (by rw [isArmed_idle idle]; decide)]
  rcases h with h | h
  · rw [windowOf_eq_none h]
  · rw [h]; cases windowOf? n <;> rfl

theorem stagedRow_none {row : UsageRow} (h : row = .variant 0 ∨ ∃ v, 31 < v ∧ row = .variant v) : stagedRow? row = none := by
  rcases h with rfl | ⟨v, hv, rfl⟩
  · rfl
  · simp [stagedRow?, variantOf_eq_none hv]

theorem stagedRow_variant {v : Variant} (hv : v ≠ 0) : stagedRow? (.variant v.val) = some (.entries v) := by
  have hv : v.val ≠ 0 := fun e => hv (Fin.ext e)
  simp [stagedRow?, hv]

/-- A STAGE_USAGE whose line, row or group is out of range (R156). -/
theorem stageUsage_outOfRange {l : Option Line} {row : UsageRow} {n : Nat}
    (h : l = none ∨ row = .variant 0 ∨ (∃ v, 31 < v ∧ row = .variant v) ∨ 15 < n) :
    l = none ∨ stagedRow? row = none ∨ groupOf? n = none := by
  rcases h with h | h | h | h
  · exact .inl h
  · exact .inr (.inl (stagedRow_none (.inl h)))
  · exact .inr (.inl (stagedRow_none (.inr h)))
  · exact .inr (.inr (groupOf_eq_none h))

theorem stageUsage_badRead {l : Option Line} {row : UsageRow} {n : Nat}
    (h : l = none ∨ stagedRow? row = none ∨ groupOf? n = none) : stageUsage .ep l row n .read s = reply .ep .badArg .empty s := by
  unfold stageUsage
  dsimp only
  rcases h with h | h | h
  · rw [h]
  · rw [h]; cases l <;> rfl
  · rw [h]; cases l <;> cases stagedRow? row <;> rfl

theorem stageUsage_badLength {l : Option Line} {row : UsageRow} {n : Nat} {values : List Nat}
    (h : values = [] ∨ 16 < n + values.length) : stageUsage .ep l row n (.write values) s = reply .ep .badArg .empty s :=
  if_pos (h.imp_left fun e => by rw [e]; rfl)

theorem stageUsage_badWrite (idle : s.applyState = .idle) {l : Option Line} {row : UsageRow} {n : Nat} {values : List Nat}
    (h : l = none ∨ stagedRow? row = none ∨ groupOf? n = none) :
    stageUsage .ep l row n (.write values) s = reply .ep .badArg .empty s := by
  unfold stageUsage
  dsimp only
  split
  · rfl
  · rw [if_neg (by rw [isArmed_idle idle]; decide)]
    rcases h with h | h | h
    · rw [h]
    · rw [h]; cases l <;> rfl
    · rw [h]; cases l <;> cases stagedRow? row <;> rfl

/-! ## Reads -/

theorem stageSlot_read (i : SlotId) : stageSlot .ep i.val .read s = reply .ep .ok (.stagedSlot s.image.slots[i]) s := by
  unfold stageSlot; rw [slotOf_val]

theorem stageRoute_read (r : RouteId) : stageRoute .ep r.val .read s = reply .ep .ok (.stagedRoute s.image.routes[r]) s := by
  unfold stageRoute; rw [routeOf_val]

theorem stageWindow_read (k : Fin 12) : stageWindow .ep k.val .read s = reply .ep .ok (.stagedWindow s.image.windows[k]) s := by
  unfold stageWindow; rw [windowOf_val]

theorem stageUsage_read (l : Line) (g : Fin 16) {row : UsageRow} {k : StagedRow} (hk : stagedRow? row = some k) :
    ∃ n, 1 ≤ n ∧ g.val + n ≤ 16 ∧ stageUsage .ep (some l) row g.val .read s =
      reply .ep .ok (.stagedUsage ((((List.finRange 16).map fun j => ((s.image.usage.get l).row k)[j]).drop g.val).take n)) s := by
  refine ⟨1 + Config.usageReadCount l row g.val % (16 - g.val), Nat.le_add_right .., ?_, ?_⟩
  · have := Nat.mod_lt (Config.usageReadCount l row g.val) (show 0 < 16 - g.val by omega)
    omega
  · unfold stageUsage
    dsimp only
    rw [hk, groupOf_val, Vector.map_finRange]

/-! ## A row written -/

theorem getD_heldIn (hi : Nat) (values : List Nat) (j : Nat) :
    (values.map fun n => heldIn 0 hi n).getD j 0 = heldIn 0 hi (values.getD j 0) := by
  simp only [List.getD_eq_getElem?_getD, List.getElem?_map]
  cases values[j]? with
  | none => exact (Nat.zero_min hi).symm.trans (min_heldIn hi 0)
  | some n => rfl

/-- A row of the usage matrix after a write into it: the values sent from the first group on, the rest as it was (R10). -/
theorem LineUsage.write_quantity (u : LineUsage) (v : Variant) (first : Nat) (values : List Nat) (w : Variant) (k : Fin 16) :
    (u.write (.entries v) first (values.map fun n => heldIn 0 15 n)).quantity w k =
      if w = v ∧ first ≤ k.val ∧ k.val < first + values.length then heldIn 0 15 (values.getD (k.val - first) 0)
      else u.quantity w k := by
  rw [LineUsage.quantity, LineUsage.write_entries_q]
  by_cases hw : w = v
  · subst hw
    rw [if_pos rfl, overlay_getElem, getD_heldIn, List.length_map]
    simp only [true_and]
    rfl
  · rw [if_neg hw, if_neg fun h => hw h.1]
    rfl

/-- A line's allowances after a write (R11). -/
theorem LineUsage.write_allowance (u : LineUsage) (first : Nat) (values : List Nat) (k : Fin 16) :
    (u.write .allowances first (values.map fun n => heldIn 0 250 n)).allowance[k] =
      if first ≤ k.val ∧ k.val < first + values.length then heldIn 0 250 (values.getD (k.val - first) 0) else u.allowance[k] := by
  show (overlay u.allowance first _)[k] = _
  rw [overlay_getElem, getD_heldIn, List.length_map]

/-! ## A write and the read after it -/

/-- An accepted write stores its entry, and a read of the state it leaves answers that entry (R156). -/
theorem exec_stores {i : StageOp Unit → Instr} {q : Request} {body : Body} {f : Image → Image} (hs : s.resetN = .high)
    (hi : ∀ o, requestIn? (i o) = some (.ep, q)) (hp : permitted .ep q = true)
    (write : takeOwner (i (.write ())) s = reply .ep .ok body (s.modImage f))
    (read : ∀ t : State, t.image = f s.image → takeOwner (i .read) t = reply .ep .ok body t) :
    ∃ t, (exec (i (.write ())) s = .next t ∧ Answered s t .ep .ok body ∧ t = { s with image := t.image, ports := t.ports } ∧
      ∃ t', exec (i .read) t = .next t' ∧ OnlyAnswered t t' .ep .ok body) ∧ t.image = f s.image :=
  ⟨_, ⟨exec_replies hs (hi _) hp write, reply_answers rfl, rfl, exec_onlyAnswers (by exact hs) (hi _) hp (read _ rfl)⟩, rfl⟩

end Sys2Proof.Machine

open Sys2Proof Sys2Proof.Machine

/-- Settles O53, request by request. -/
theorem stagedEntriesAreClampedAndReadBack : Obligations.StagedEntriesAreClampedAndReadBack := by
  intro s hs clamp stored op
  refine ⟨fun idle => ⟨?_, ?_, ?_, ?_, ?_, ?_⟩, ⟨fun i => ?_, fun r => ?_, fun k => ?_, ?_⟩, fun l g v => ⟨fun hv => ?_, ?_⟩,
    fun i hi => ?_, fun l armed i hi => ?_⟩
  · intro i f kind status line g z sensor policy hk hst hl hg hz hse hp c
    refine exec_stores (i := fun o => .stageSlot .ep i.val (op f o)) hs (fun _ => rfl) rfl
      (stageSlot_write idle i (stagedSlot_some hk hst hl hg hz hse hp)) fun t ht => ?_
    refine (stageSlot_read i).trans ?_
    rw [ht]
    simp
  · intro l v g values hv low high
    refine ⟨_, exec_replies (i := .stageUsage .ep (some l) (.variant v.val) g.val (.write values)) hs rfl rfl
      (stageUsage_write idle l g (stagedRow_variant hv) low high), reply_answers rfl, rfl, rfl, fun k hk => ?_, ?_, fun w k => ?_⟩
    · exact PerLine.get_modify_ne _ _ hk
    · exact (congrArg LineUsage.allowance (PerLine.get_modify_self ..)).trans rfl
    · exact (congrArg (LineUsage.quantity · w k) (PerLine.get_modify_self ..)).trans (LineUsage.write_quantity ..)
  · intro l g values low high
    refine ⟨_, exec_replies (i := .stageUsage .ep (some l) .allowance g.val (.write values)) hs rfl rfl
      (stageUsage_write idle l g (k := .allowances) rfl low high), reply_answers rfl, rfl, rfl, fun k hk => ?_, ?_, fun k => ?_⟩
    · exact PerLine.get_modify_ne _ _ hk
    · exact (congrArg LineUsage.q (PerLine.get_modify_self ..)).trans rfl
    · exact (congrArg (fun u : LineUsage => u.allowance[k]) (PerLine.get_modify_self ..)).trans (LineUsage.write_allowance ..)
  · intro r f source m hso hm low high c
    refine exec_stores (i := fun o => .stageRoute .ep r.val (op f o)) hs (fun _ => rfl) rfl
      (stageRoute_write idle r (stagedRoute_some hso hm low high)) fun t ht => ?_
    refine (stageRoute_read r).trans ?_
    rw [ht]
    simp
  · intro k f r hr w
    refine exec_stores (i := fun o => .stageWindow .ep k.val (op f o)) hs (fun _ => rfl) rfl
      (stageWindow_write idle k (stagedWindow_some hr)) fun t ht => ?_
    refine (stageWindow_read k).trans ?_
    rw [ht]
    simp
  · intro f
    refine exec_stores (i := fun o => .stageGlobals .ep (op f o)) hs (fun _ => rfl) rfl (stageGlobals_write idle f) fun t ht => ?_
    refine Eq.trans (b := reply .ep .ok (.stagedGlobals t.image.ageStep t.image.watermark) t) rfl ?_
    rw [ht]
  · exact exec_onlyAnswers (i := .stageSlot .ep i.val .read) hs rfl rfl (stageSlot_read i)
  · exact exec_onlyAnswers (i := .stageRoute .ep r.val .read) hs rfl rfl (stageRoute_read r)
  · exact exec_onlyAnswers (i := .stageWindow .ep k.val .read) hs rfl rfl (stageWindow_read k)
  · exact exec_onlyAnswers (i := .stageGlobals .ep .read) hs rfl rfl rfl
  · obtain ⟨n, low, high, read⟩ := stageUsage_read (s := s) l g (stagedRow_variant hv)
    obtain ⟨t, taken, answered⟩ := exec_onlyAnswers (i := .stageUsage .ep (some l) (.variant v.val) g.val .read) hs rfl rfl read
    exact ⟨t, n, low, high, taken, answered⟩
  · obtain ⟨n, low, high, read⟩ := stageUsage_read (s := s) l g (row := .allowance) (k := .allowances) rfl
    obtain ⟨t, taken, answered⟩ := exec_onlyAnswers (i := .stageUsage .ep (some l) .allowance g.val .read) hs rfl rfl read
    exact ⟨t, n, low, high, taken, answered⟩
  · rcases hi with ⟨n, hn, rfl⟩ | ⟨n, hn, rfl⟩ | ⟨n, hn, rfl⟩ | ⟨l, row, n, bad, rfl⟩ | ⟨l, row, n, values, bad, rfl⟩ | ⟨idle, hi⟩
    · exact exec_onlyAnswers (i := .stageSlot .ep n .read) hs rfl rfl (by simp [takeOwner, stageSlot, slotOf_eq_none hn])
    · exact exec_onlyAnswers (i := .stageRoute .ep n .read) hs rfl rfl (by simp [takeOwner, stageRoute, routeOf_eq_none hn])
    · exact exec_onlyAnswers (i := .stageWindow .ep n .read) hs rfl rfl (by simp [takeOwner, stageWindow, windowOf_eq_none hn])
    · exact exec_onlyAnswers (i := .stageUsage .ep l row n .read) hs rfl rfl (stageUsage_badRead (stageUsage_outOfRange bad))
    · exact exec_onlyAnswers (i := .stageUsage .ep l row n (.write values)) hs rfl rfl (stageUsage_badLength bad)
    rcases hi with ⟨n, f, bad, rfl⟩ | ⟨n, f, bad, rfl⟩ | ⟨n, f, bad, rfl⟩ | ⟨l, row, n, values, bad, rfl⟩
    · exact exec_onlyAnswers (i := .stageSlot .ep n (.write f)) hs rfl rfl
        (stageSlot_badArg idle (bad.imp_right stagedSlot_none))
    · exact exec_onlyAnswers (i := .stageRoute .ep n (.write f)) hs rfl rfl
        (stageRoute_badArg idle (bad.imp_right stagedRoute_none))
    · exact exec_onlyAnswers (i := .stageWindow .ep n (.write f)) hs rfl rfl
        (stageWindow_badArg idle (bad.imp_right stagedWindow_none))
    · exact exec_onlyAnswers (i := .stageUsage .ep l row n (.write values)) hs rfl rfl
        (stageUsage_badWrite idle (stageUsage_outOfRange bad))
  · have held := isArmed_armed armed
    rcases hi with ⟨n, f, rfl⟩ | ⟨n, f, rfl⟩ | ⟨n, f, rfl⟩ | ⟨f, rfl⟩ | ⟨k, row, n, values, rfl, sent, room⟩
    · exact exec_onlyAnswers (i := .stageSlot .ep n (.write f)) hs rfl rfl (stageSlot_locked held n f)
    · exact exec_onlyAnswers (i := .stageRoute .ep n (.write f)) hs rfl rfl (stageRoute_locked held n f)
    · exact exec_onlyAnswers (i := .stageWindow .ep n (.write f)) hs rfl rfl (stageWindow_locked held n f)
    · exact exec_onlyAnswers (i := .stageGlobals .ep (.write f)) hs rfl rfl (if_pos held)
    · exact exec_onlyAnswers (i := .stageUsage .ep k row n (.write values)) hs rfl rfl (stageUsage_locked held k row n sent room)

end

section
/-!
PROOFS: the advance. An advance is, whole, the list settled, the plan taken where it is marked and armed, then the unit's draws and its
starvation test; each statement about ADVANCE is read off that.
-/

namespace Sys2Proof.Machine

open Sys2Proof

variable {s : State} {l : Line} {seq : SeqNo} {v : Variant} {mark : Bool}

/-- Two passes that agree wherever an invariant holds, which the first keeps, come to the same. -/
theorem foldl_congr_of {α β : Type} {f g : β → α → β} (Q : β → Prop) (keeps : ∀ b a, Q b → Q (f b a))
    (same : ∀ b a, Q b → f b a = g b a) : ∀ (as : List α) {b : β}, Q b → as.foldl f b = as.foldl g b
  | [], _, _ => rfl
  | a :: as, b, hb => by
    rw [List.foldl_cons, List.foldl_cons, ← same b a hb]
    exact foldl_congr_of Q keeps same as (keeps b a hb)

/-! ## The draws -/

/-- The state keeps a line's usage and every slot's configuration. -/
structure State.KeepsPlan (s t : State) : Prop where
  usage : t.usage = s.usage
  cfg : ∀ i, (t.slot i).cfg = (s.slot i).cfg

theorem State.KeepsPlan.refl (s : State) : s.KeepsPlan s := ⟨rfl, fun _ => rfl⟩

theorem State.charge_plan (t : State) (i : SlotId) (d : Nat) (seq : SeqNo) : t.KeepsPlan (t.charge i d seq) := by
  have written (u : State) (hu : u.usage = t.usage) (hc : ∀ j, (u.slot j).cfg = (t.slot j).cfg) : t.KeepsPlan (u.evaluate i) :=
    ⟨(evaluate_moves i u).usage.trans hu, fun j => ((evaluate_moves i u).cfg j).trans (hc j)⟩
  have charged (j : SlotId) : (State.slot { t with slots := t.slots.set i ((t.slot i).charged d) } j).cfg = (t.slot j).cfg := by
    by_cases hj : j = i
    · subst hj; rw [State.slot_of_set (s := t) rfl]; rfl
    · rw [State.others_of_set (s := t) rfl j hj]
  unfold State.charge
  dsimp only
  split
  · exact written _ rfl charged
  · exact written _ rfl charged

theorem Slot.drawnBy_iff (l : Line) (x : Slot) : x.drawnBy l = true ↔ x.reachedBy l .kanban := by
  simp [Slot.drawnBy, Slot.reachedBy, SlotConfig.running, and_assoc]

/-- A draw in the statement's words (R13). -/
theorem State.draw_eq (s : State) {i : SlotId} (line : (s.slot i).cfg.line = l) (v : Variant) :
    s.draw i v = s.drawOn l v (s.slot i) := by
  subst line
  rfl

/-- An advance's draws, slot by slot (R12, R14). -/
theorem State.drawLine_eq (s : State) (l : Line) (v : Variant) (seq : SeqNo) : s.drawLine l v seq = s.afterDraws l v seq := by
  unfold State.drawLine State.afterDraws
  by_cases hv : v = 0
  · have idle (is : List SlotId) : is.foldl (fun t i =>
        if v ≠ 0 ∧ t.drawOn l v (t.slot i) ≠ 0 ∧ (t.slot i).reachedBy l .kanban then t.charge i (t.drawOn l v (t.slot i)) seq
        else t) s = s := by
      induction is with
      | nil => rfl
      | cons i is ih => rw [List.foldl_cons, if_neg fun h => h.1 hv, ih]
    rw [if_pos hv]
    exact (idle _).symm
  · rw [if_neg hv, State.slotsWhere, List.foldl_filter]
    refine (foldl_congr_of s.KeepsPlan (fun t i ht => ?_) (fun t i ht => ?_) slotIds (State.KeepsPlan.refl s)).symm
    · dsimp only
      split
      · have moved := t.charge_plan i (t.drawOn l v (t.slot i)) seq
        exact ⟨moved.usage.trans ht.usage, fun j => (moved.cfg j).trans (ht.cfg j)⟩
      · exact ht
    · have reached : (s.slot i).drawnBy l = true ↔ (t.slot i).reachedBy l .kanban := by
        rw [Slot.drawnBy_iff, Slot.reachedBy, Slot.reachedBy, ht.cfg]
      dsimp only
      by_cases hr : (t.slot i).reachedBy l .kanban
      · rw [if_pos (reached.mpr hr), State.drawSlot, State.draw_eq t hr.2.2]
        by_cases hd : t.drawOn l v (t.slot i) = 0
        · rw [if_neg (by simp [hd]), hd]; simp [State.applyDraw]
        · rw [if_pos ⟨hv, hd, hr⟩, State.applyDraw_eq t i seq hd]
      · rw [if_neg (fun h => hr h.2.2), if_neg (fun h => hr (reached.mp h))]

theorem State.afterDraws_rest (s : State) (l : Line) (v : Variant) (seq : SeqNo) : s.afterDraws l v seq = { s with
    slots := (s.afterDraws l v seq).slots, demand := (s.afterDraws l v seq).demand, queues := (s.afterDraws l v seq).queues } := by
  rw [← State.drawLine_eq]; exact State.drawLine_rest ..

/-- What the draws do to every record (R12 to R14). -/
theorem State.afterDraws_slot (s : State) (l : Line) (v : Variant) (seq : SeqNo) (i : SlotId) :
    (v ≠ 0 ∧ s.drawOn l v (s.slot i) ≠ 0 ∧ (s.slot i).reachedBy l .kanban →
      SameButOrders ((s.slot i).charged (s.drawOn l v (s.slot i))) ((s.afterDraws l v seq).slot i)) ∧
    (¬(v ≠ 0 ∧ s.drawOn l v (s.slot i) ≠ 0 ∧ (s.slot i).reachedBy l .kanban) →
      (s.afterDraws l v seq).slot i = s.slot i) := by
  have slot := s.drawLine_slot l v seq i
  rw [State.drawLine_eq] at slot
  refine ⟨fun ⟨hv, hd, hr⟩ => ?_, fun undrawn => ?_⟩
  · have draw := s.draw_eq hr.2.2 v
    rw [if_pos ⟨hv, (Slot.drawnBy_iff l _).mpr hr, draw ▸ hd⟩, draw] at slot
    exact slot
  · have idle : ¬(v ≠ 0 ∧ (s.slot i).drawnBy l = true ∧ s.draw i v ≠ 0) := fun ⟨hv, hr, hd⟩ => by
      have hr := (Slot.drawnBy_iff l _).mp hr
      exact undrawn ⟨hv, s.draw_eq hr.2.2 v ▸ hd, hr⟩
    rwa [if_neg idle] at slot

theorem State.afterDraws_cfg (s : State) (l : Line) (v : Variant) (seq : SeqNo) (i : SlotId) :
    ((s.afterDraws l v seq).slot i).cfg = (s.slot i).cfg := by
  obtain ⟨drawn, undrawn⟩ := s.afterDraws_slot l v seq i
  by_cases h : v ≠ 0 ∧ s.drawOn l v (s.slot i) ≠ 0 ∧ (s.slot i).reachedBy l .kanban
  · exact (drawn h).cfg
  · rw [undrawn h]

theorem State.afterDraws_sequenced {i : SlotId} (sequenced : (s.slot i).cfg.kind = .sequenced) (l : Line) (v : Variant)
    (seq : SeqNo) : (s.afterDraws l v seq).slot i = s.slot i :=
  (s.afterDraws_slot l v seq i).2 fun ⟨_, _, kanban, _⟩ => by rw [sequenced] at kanban; cases kanban

/-! ## The starvation test -/

theorem Slot.testedBy_iff (l : Line) (x : Slot) : x.testedBy l = true ↔ x.reachedBy l .sequenced := by
  simp [Slot.testedBy, Slot.reachedBy, SlotConfig.running, and_assoc]

/-- One slot's test, after the draws and in the statement's words (R34). -/
theorem State.starved_eq (s : State) (l : Line) (v : Variant) (seq : SeqNo) {case : AdvanceCase} {listed : Bool}
    (hc : case = .unannounced ↔ listed = false) (i : SlotId) :
    (if Slot.testedBy l ((s.afterDraws l v seq).slot i) = true then (s.afterDraws l v seq).starved v case seq i else none)
      = s.starvedAt l v seq listed i := by
  have usage : (s.afterDraws l v seq).usage = s.usage := by rw [s.afterDraws_rest]
  unfold State.starvedAt
  by_cases tested : (s.slot i).reachedBy l .sequenced
  · have slot := State.afterDraws_sequenced tested.1 l v seq
    have qualifies : (s.afterDraws l v seq).qualifies i v = decide (0 < (s.usage.get l).quantity v (s.slot i).cfg.group) := by
      simp only [State.qualifies, usage, slot, tested.2.2]
    unfold State.starved State.starveReason
    rw [slot, if_pos ((Slot.testedBy_iff l _).mpr tested), qualifies]
    simp only [decide_eq_true_eq, hc]
    by_cases some_used : 0 < (s.usage.get l).quantity v (s.slot i).cfg.group
    · rw [if_pos some_used, if_pos ⟨tested, some_used⟩]
      cases (s.slot i).marks with
      | none => rfl
      | some m =>
        dsimp only
        split
        · rfl
        · split <;> rfl
    · rw [if_neg some_used, if_neg fun h => some_used h.2]
  · have cfg := s.afterDraws_cfg l v seq i
    have untested : ¬Slot.testedBy l ((s.afterDraws l v seq).slot i) = true := fun h => by
      have h := (Slot.testedBy_iff l _).mp h
      rw [Slot.reachedBy, cfg] at h
      exact tested h
    rw [if_neg untested, if_neg fun h => tested h.1]

/-- An advance's draws and its starvation test, whole (R33). -/
theorem State.starveLine_drawLine (s : State) (l : Line) (v : Variant) (seq : SeqNo) {case : AdvanceCase} {listed : Bool}
    (hc : case = .unannounced ↔ listed = false) :
    (s.drawLine l v seq).starveLine l v case seq = s.afterUnit l v seq listed := by
  rw [State.drawLine_eq, State.starveLine_eq, State.slotsWhere, List.filterMap_filter, State.afterUnit]
  exact congrArg (fun f => ((List.finRange 192).filterMap f).foldl State.raise (s.afterDraws l v seq))
    (funext fun i => s.starved_eq l v seq hc i)

theorem State.afterUnit_rest (s : State) (l : Line) (v : Variant) (seq : SeqNo) (listed : Bool) :
    s.afterUnit l v seq listed = { s.afterDraws l v seq with queues := (s.afterUnit l v seq listed).queues } :=
  State.foldl_raise_rest ..

/-! ## Settling -/

/-- The orphans of pulled units, in the statement's words (R31). -/
theorem State.orphans_eq (s : State) (l : Line) (pulled : List AnnouncedUnit) :
    s.orphans l pulled = min 65535 (s.orphansOf l pulled) := by
  unfold State.orphans State.orphansOf
  refine congrArg (min 65535) (congrArg List.sum (List.map_congr_left fun u _ => ?_))
  rw [State.slotsWhere, List.filter_filter, ← List.countP_eq_length_filter]
  refine List.countP_congr fun i _ => ?_
  have tested := Slot.testedBy_iff l (s.slot i)
  by_cases h : (s.slot i).reachedBy l .sequenced
  · rw [tested.mpr h]
    unfold State.orphanAt State.qualifies
    cases hm : (s.slot i).marks <;> simp [h, hm]
  · rw [Bool.eq_false_iff.mpr fun e => h (tested.mp e)]
    simp [h]

/-- A number outside the list leaves it (R30). -/
theorem State.afterSettling_absent (absent : (s.seq l).units.findIdx? (·.seq == seq) = none) : s.afterSettling l seq = s := by
  simp only [State.afterSettling, absent]

/-- The head of the list leaves it (R30). -/
theorem State.afterSettling_head (found : (s.seq l).units.findIdx? (·.seq == seq) = some 0) :
    s.afterSettling l seq = s.modSeq l fun q => { q with units := (s.seq l).units.drop 1 } := by
  simp only [State.afterSettling, found, if_true]

/-- A later unit pulls those before it out, which SEQ_BREAK tells (R30, R31). -/
theorem State.afterSettling_pulled {k : Nat} (found : (s.seq l).units.findIdx? (·.seq == seq) = some k) (hk : k ≠ 0) :
    s.afterSettling l seq = (s.modSeq l fun q => { q with units := (s.seq l).units.drop (k + 1) }).raise
      (.seqBreak l seq k (min 65535 (s.orphansOf l ((s.seq l).units.take k)))) := by
  simp only [State.afterSettling, found, if_neg hk]

/-- A list settled, in the statement's words (R30, R31). -/
theorem State.settleList_eq (s : State) (l : Line) (seq : SeqNo) :
    s.settleList l seq (settle (s.seq l).units seq) = s.afterSettling l seq := by
  unfold State.settleList
  cases found : (s.seq l).units.findIdx? (·.seq == seq) with
  | none =>
    have absent : settle (s.seq l).units seq = ⟨.unannounced, [], false, (s.seq l).units⟩ := by simp [settle, found]
    have same : s.modSeq l (fun q => { q with units := (s.seq l).units }) = s := by cases l <;> rfl
    rw [absent, State.afterSettling_absent found]
    exact same
  | some k =>
    rw [settle_found found]
    by_cases hk : k = 0
    · subst hk
      rw [State.afterSettling_head found]
      rfl
    · obtain ⟨inside, -⟩ := List.findIdx?_eq_some_iff_getElem.mp found
      dsimp only
      rw [if_neg hk, if_pos rfl, State.afterSettling_pulled found hk, State.orphans_eq, List.length_take,
        Nat.min_eq_left (Nat.le_of_lt inside)]

theorem settle_unannounced (units : List AnnouncedUnit) (seq : SeqNo) :
    (settle units seq).case = .unannounced ↔ units.any (·.seq == seq) = false := by
  cases found : units.findIdx? (·.seq == seq) with
  | none =>
    have absent := List.findIdx?_eq_none_iff.mp found
    simp only [settle, found, true_iff, List.any_eq_false]
    exact fun u hu => by simpa using absent u hu
  | some k =>
    obtain ⟨inside, hit, -⟩ := List.findIdx?_eq_some_iff_getElem.mp found
    have case : (settle units seq).case ≠ .unannounced := by
      rw [settle_found found]; dsimp only; split <;> decide
    have listed : units.any (·.seq == seq) = true := List.any_eq_true.mpr ⟨_, List.getElem_mem inside, hit⟩
    simp [case, listed]

/-! ## The advance, whole -/

/-- The plan taken, and the unit disarmed, where the advance takes it (R32, R158). -/
def State.planTaken (s : State) (l : Line) (seq : SeqNo) : State :=
  { s.applyImage (some l) .atMark seq with applyState := .idle }

theorem takeAdvance_plain (plain : ¬s.takesPlan l seq mark) : s.takeAdvance l seq v mark =
    (s.afterSettling l seq).afterUnit l v seq ((s.seq l).units.any (·.seq == seq)) := by
  have unarmed : ¬((mark || (settle (s.seq l).units seq).marked) = true ∧ (s.afterSettling l seq).applyState = .armed l) :=
    fun ⟨marked, armed⟩ => plain ((s.takesPlan_iff l seq mark).mpr ⟨by rwa [State.afterSettling_applyState] at armed, marked⟩)
  unfold State.takeAdvance
  dsimp only
  rw [State.settleList_eq, State.applyAtMark, if_neg unarmed]
  exact State.starveLine_drawLine _ l v seq (settle_unannounced ..)

theorem takeAdvance_planned (planned : s.takesPlan l seq mark) : s.takeAdvance l seq v mark =
    ((s.afterSettling l seq).planTaken l seq).afterUnit l v seq ((s.seq l).units.any (·.seq == seq)) := by
  obtain ⟨armed, marked⟩ := (s.takesPlan_iff l seq mark).mp planned
  unfold State.takeAdvance
  dsimp only
  rw [State.settleList_eq, State.applyAtMark, if_pos ⟨marked, by rw [State.afterSettling_applyState]; exact armed⟩]
  exact State.starveLine_drawLine _ l v seq (settle_unannounced ..)

/-- What ADVANCE answers (R30). -/
def State.advanced (s : State) (l : Line) (seq : SeqNo) : Body :=
  let a := settle (s.seq l).units seq
  .advanced a.case a.pulled.length a.rest.length

theorem advance_ok (active : s.mode = .active) : advance .lp (some l) seq v.val mark s =
    reply .lp .ok (s.advanced l seq) (s.takeAdvance l seq v mark) := by
  unfold advance
  rw [if_neg (by simp [active]), variantOf_val]
  rfl

theorem takeAdvance_ports (s : State) (l : Line) (seq : SeqNo) (v : Variant) (mark : Bool) :
    (s.takeAdvance l seq v mark).ports = s.ports := by
  by_cases planned : s.takesPlan l seq mark
  · rw [takeAdvance_planned planned, State.afterUnit_rest, State.afterDraws_rest, State.planTaken, State.applyImage_rest,
      State.afterSettling_frame]
  · rw [takeAdvance_plain planned, State.afterUnit_rest, State.afterDraws_rest, State.afterSettling_frame]

/-- An accepted ADVANCE. -/
theorem exec_advance (hs : s.resetN = .high) (active : s.mode = .active) (l : Line) (seq : SeqNo) (v : Variant) (mark : Bool) :
    exec (.advance .lp (some l) seq v.val mark) s = .next (reply .lp .ok (s.advanced l seq) (s.takeAdvance l seq v mark)) ∧
      Answered s (reply .lp .ok (s.advanced l seq) (s.takeAdvance l seq v mark)) .lp .ok (s.advanced l seq) :=
  ⟨exec_replies (i := .advance .lp (some l) seq v.val mark) hs rfl rfl (advance_ok active), reply_answers (takeAdvance_ports ..)⟩

/-! ## What an advance leaves of the list -/

theorem takeAdvance_seqs (s : State) (l : Line) (seq : SeqNo) (v : Variant) (mark : Bool) :
    (s.takeAdvance l seq v mark).seqs = (s.afterSettling l seq).seqs := by
  by_cases planned : s.takesPlan l seq mark
  · rw [takeAdvance_planned planned, State.afterUnit_rest, State.afterDraws_rest, State.planTaken, State.applyImage_rest]
  · rw [takeAdvance_plain planned, State.afterUnit_rest, State.afterDraws_rest]

/-- A unit found at place k leaves with those before it, and nothing else of the lists moves (R30). -/
theorem State.afterSettling_seq {k : Nat} (found : (s.seq l).units.findIdx? (·.seq == seq) = some k) :
    (s.afterSettling l seq).seqs = s.seqs.modify l fun q => { q with units := (s.seq l).units.drop (k + 1) } := by
  by_cases hk : k = 0
  · subst hk; rw [State.afterSettling_head found]; rfl
  · rw [State.afterSettling_pulled found hk]; rfl

theorem State.advanced_found {k : Nat} (found : (s.seq l).units.findIdx? (·.seq == seq) = some k) : s.advanced l seq =
    .advanced (if k = 0 then .head else .pulled) k ((s.seq l).units.length - (k + 1)) := by
  obtain ⟨inside, -⟩ := List.findIdx?_eq_some_iff_getElem.mp found
  unfold State.advanced
  rw [settle_found found]
  simp only [List.length_take, List.length_drop, Nat.min_eq_left (Nat.le_of_lt inside)]

/-- A plain advance's settling and its unit move the lists, the slots, the demand queue and the notices alone (R33). -/
theorem State.afterUnit_frame (s : State) (l : Line) (v : Variant) (seq : SeqNo) (listed : Bool) :
    (s.afterSettling l seq).afterUnit l v seq listed = { s with
      seqs := (s.afterSettling l seq).seqs, slots := ((s.afterSettling l seq).afterDraws l v seq).slots
      demand := ((s.afterSettling l seq).afterDraws l v seq).demand
      queues := ((s.afterSettling l seq).afterUnit l v seq listed).queues } := by
  rw [State.afterUnit_rest, State.afterDraws_rest, State.afterSettling_frame]

theorem State.afterUnit_slot (s : State) (l : Line) (v : Variant) (seq : SeqNo) (listed : Bool) (i : SlotId) :
    (s.afterUnit l v seq listed).slot i = (s.afterDraws l v seq).slot i := by
  rw [State.afterUnit_rest]; rfl

theorem State.afterSettling_slot (s : State) (l : Line) (seq : SeqNo) (i : SlotId) : (s.afterSettling l seq).slot i = s.slot i := by
  rw [State.slot, State.afterSettling_slots]; rfl

/-- Settling moves nothing that the starvation test reads (R34). -/
theorem State.afterSettling_starvedAt (s : State) (l : Line) (v : Variant) (seq : SeqNo) (listed : Bool) :
    (s.afterSettling l seq).starvedAt l v seq listed = s.starvedAt l v seq listed := by
  funext i
  unfold State.starvedAt
  rw [State.afterSettling_slot, State.afterSettling_usage]

theorem State.starvedAt_some {listed : Bool} {i : SlotId} {e : Event} (h : s.starvedAt l v seq listed i = some e) :
    ∃ why, e = .seqStarved i seq why := by
  unfold State.starvedAt at h
  dsimp only at h
  split at h
  · split at h
    · exact ⟨_, (Option.some.inj h).symm⟩
    · split at h
      · exact ⟨_, (Option.some.inj h).symm⟩
      · split at h
        · exact ⟨_, (Option.some.inj h).symm⟩
        · cases h
  · cases h

/-- A unit of variant 0 that no slot uses draws nothing and starves none (R10, R33). -/
theorem State.afterUnit_gap (s : State) (l : Line) (seq : SeqNo) (listed : Bool) (gap : ∀ g, (s.usage.get l).quantity 0 g = 0) :
    s.afterUnit l 0 seq listed = s := by
  have undrawn : s.afterDraws l 0 seq = s := by rw [← State.drawLine_eq]; exact if_pos rfl
  have unstarved : (List.finRange 192).filterMap (s.starvedAt l 0 seq listed) = [] := by
    refine List.filterMap_eq_nil_iff.mpr fun i _ => ?_
    unfold State.starvedAt
    exact if_neg fun ⟨_, used⟩ => by rw [gap] at used; exact absurd used (Nat.lt_irrefl 0)
  rw [State.afterUnit, undrawn, unstarved]
  rfl

/-! ## Advances refused -/

theorem advance_notActive (idle : s.mode ≠ .active) (line : Option Line) (n : Nat) :
    advance .lp line seq n mark s = reply .lp .notActive .empty s := if_pos idle

theorem advance_badArg (active : s.mode = .active) {line : Option Line} {n : Nat} (h : line = none ∨ 31 < n) :
    advance .lp line seq n mark s = reply .lp .badArg .empty s := by
  unfold advance
  rw [if_neg (by simp [active])]
  rcases h with h | h
  · rw [h]
  · rw [variantOf_eq_none h]; cases line <;> rfl

end Sys2Proof.Machine

open Sys2Proof Sys2Proof.Machine

/-- Settles O33, by where the number stands in the list. -/
theorem advanceSettlesTheList : Obligations.AdvanceSettlesTheList := by
  refine fun s l seq n mark hs => ⟨fun active hn => ?_, fun idle line => ?_, fun active line bad => ?_⟩
  · obtain ⟨v, rfl⟩ := variantOf_of_le hn
    obtain ⟨taken, answered⟩ := exec_advance hs active l seq v mark
    have seqs : (reply .lp .ok (s.advanced l seq) (s.takeAdvance l seq v mark)).seqs = (s.afterSettling l seq).seqs :=
      takeAdvance_seqs s l seq v mark
    refine ⟨fun k found => ⟨_, taken, ?_, ?_, fun j hj => ?_⟩, fun absent => ⟨_, taken, ?_, ?_⟩⟩
    · rw [← State.advanced_found found]; exact answered
    · rw [State.seq, seqs, State.afterSettling_seq found]; exact PerLine.get_modify_self ..
    · rw [State.seq, seqs, State.afterSettling_seq found]; exact PerLine.get_modify_ne _ _ hj
    · have body : s.advanced l seq = .advanced .unannounced 0 (s.seq l).units.length := by
        unfold State.advanced; rw [settle_absent absent]; rfl
      rw [← body]; exact answered
    · have unlisted : (s.seq l).units.findIdx? (·.seq == seq) = none :=
        List.findIdx?_eq_none_iff.mpr fun u hu => beq_eq_false_iff_ne.mpr (absent u hu)
      rw [seqs, State.afterSettling_absent unlisted]
  · exact exec_onlyAnswers (i := .advance .lp line seq n mark) hs rfl rfl (advance_notActive idle line n)
  · exact exec_onlyAnswers (i := .advance .lp line seq n mark) hs rfl rfl (advance_badArg active bad)

/-- Settles O34: the advance is its settling, its draws and its notices, in that order. -/
theorem advanceDrawsOnTheEstimates : Obligations.AdvanceDrawsOnTheEstimates := by
  intro s l seq v mark hs active plain u draw drawn charged w
  let p := s.afterSettling l seq
  have pass : w = p.afterDraws l v seq := by
    refine (foldl_congr_of (fun t => t.usage = s.usage) (fun t i ht => ?_) (fun t i ht => ?_) _ (State.afterSettling_usage s l seq)).symm
    · dsimp only
      split
      · exact (t.charge_plan i _ seq).usage.trans ht
      · exact ht
    · have same : t.drawOn l v (t.slot i) = draw (t.slot i) := by unfold State.drawOn; rw [ht]
      dsimp only
      rw [same]
      rfl
  obtain ⟨taken, answered⟩ := exec_advance hs active l seq v mark
  have whole : s.takeAdvance l seq v mark = p.afterUnit l v seq ((s.seq l).units.any (·.seq == seq)) := takeAdvance_plain plain
  rw [whole] at taken
  refine ⟨_, (List.finRange 192).filterMap (p.starvedAt l v seq ((s.seq l).units.any (·.seq == seq))), taken, ?_, ?_,
    fun e he => ?_, fun i => ?_⟩
  · have frame := s.afterUnit_frame l v seq ((s.seq l).units.any (·.seq == seq))
    have seqs : w.seqs = p.seqs := by rw [pass, State.afterDraws_rest]
    rw [seqs, pass]
    change p.afterUnit l v seq _ = _ at frame
    generalize p.afterUnit l v seq ((s.seq l).units.any (·.seq == seq)) = unit at frame ⊢
    rw [frame]
    rfl
  · rw [pass]; rfl
  · obtain ⟨i, -, told⟩ := List.mem_filterMap.mp he
    exact ⟨i, State.starvedAt_some told⟩
  · have slot := p.afterDraws_slot l v seq i
    have same : p.drawOn l v (p.slot i) = draw (s.slot i) := by
      unfold State.drawOn
      rw [State.afterSettling_slot, State.afterSettling_usage]
    rw [same, State.afterSettling_slot] at slot
    intro x y
    have moved : y = (p.afterDraws l v seq).slot i := State.afterUnit_slot ..
    rw [moved]
    exact slot

/-- Settles O36. -/
theorem unsuppliedUnitsAreReportedStarved : Obligations.UnsuppliedUnitsAreReportedStarved := by
  intro s l seq v mark hs active plain listed starved drawn
  have test : starved = (s.afterSettling l seq).starvedAt l v seq listed := by
    rw [State.afterSettling_starvedAt]
    funext i
    refine if_congr ?_ rfl rfl
    simp only [Slot.reachedBy, and_assoc]
  have whole : s.takeAdvance l seq v mark = (s.afterSettling l seq).afterUnit l v seq listed := takeAdvance_plain plain
  obtain ⟨taken, -⟩ := exec_advance hs active l seq v mark
  rw [whole] at taken
  refine ⟨_, taken, by rw [test]; rfl, fun i sequenced => ?_⟩
  have slot := s.afterSettling_slot l seq i
  exact (State.afterUnit_slot ..).trans ((State.afterDraws_sequenced (by rw [slot]; exact sequenced) l v seq).trans slot)

/-- Settles O37: a pulled list, settled, is the SEQ_BREAK; the unit follows. -/
theorem pulledUnitsAreReportedWithTheirOrphans : Obligations.PulledUnitsAreReportedWithTheirOrphans := by
  intro s l seq v mark k hs active plain hk found orphan orphans
  have counted : orphans = s.orphansOf l ((s.seq l).units.take k) := by
    refine congrArg List.sum (List.map_congr_left fun u _ => List.countP_congr fun i _ => ?_)
    simp [orphan, Slot.reachedBy, and_assoc]
  have listed : (s.seq l).units.any (·.seq == seq) = true := by
    obtain ⟨inside, hit, -⟩ := List.findIdx?_eq_some_iff_getElem.mp found
    exact List.any_eq_true.mpr ⟨_, List.getElem_mem inside, hit⟩
  have whole := takeAdvance_plain (v := v) plain
  rw [listed, State.afterSettling_pulled found (by omega), ← counted] at whole
  obtain ⟨taken, -⟩ := exec_advance hs active l seq v mark
  rw [whole] at taken
  have seqs := (takeAdvance_seqs s l seq v mark).trans (State.afterSettling_seq found)
  rw [whole] at seqs
  obtain ⟨broken, settled⟩ : ∃ u : State, u = (s.modSeq l fun q => { q with units := (s.seq l).units.drop (k + 1) }).raise
    (.seqBreak l seq k (min 65535 orphans)) := ⟨_, rfl⟩
  rw [← settled] at taken seqs
  obtain ⟨t, answer⟩ : ∃ t, t = reply .lp .ok (s.advanced l seq) (broken.afterUnit l v seq true) := ⟨_, rfl⟩
  rw [← answer] at taken
  have frame : t = { broken.afterUnit l v seq true with ports := t.ports } := by rw [answer]; rfl
  have seqs : t.seqs = s.seqs.modify l fun q => { q with units := (s.seq l).units.drop (k + 1) } := by rw [frame]; exact seqs
  have broke : ({ s with seqs := t.seqs } : State).raise (.seqBreak l seq k (min 65535 orphans)) = broken := by
    rw [seqs, settled]; rfl
  refine ⟨t, taken, ?_, fun j hj => ?_, ?_, ?_⟩
  · rw [State.seq, seqs]; exact PerLine.get_modify_self ..
  · rw [State.seq, seqs]; exact PerLine.get_modify_ne _ _ hj
  · rw [broke]; exact frame
  · rw [broke]
    rintro rfl unused
    have usage : broken.usage = s.usage := by rw [settled]; rfl
    rw [State.afterUnit_gap _ l seq true (by rw [usage]; exact unused)] at frame
    rw [frame, settled]
    rfl

end

section
/-!
PROOFS: the apply. What one slot's adjustment does to its record and to the demand queue, what the pass over the changed slots comes
to, and the apply as a whole.
-/

namespace Sys2Proof.Machine

open Sys2Proof

variable {s t u : State} {i j : SlotId}

/-! ## Cancelling -/

/-- The containers of a slot's OPEN line in a queue (R8). -/
def DemandQueue.openContainers (d : DemandQueue) (i : SlotId) : Nat := ((d.lines.find? (·.slot == i)).map (·.containers)).getD 0

/-- A queue with k containers of a slot cancelled: nothing for none, the line in whole or in part else (R56). -/
def DemandQueue.cancel (d : DemandQueue) (i : SlotId) (k : Nat) : DemandQueue :=
  if k = 0 then d
  else if d.openContainers i ≤ k then ({ d with lines := d.lines.filter (·.slot != i) } : DemandQueue).rearm
  else { d with lines := d.lines.map fun x => if x.slot == i then { x with containers := x.containers - k } else x }

theorem State.cancelOpen_demand (s : State) (i : SlotId) (n : Nat) :
    (s.cancelOpen i n).demand = s.demand.cancel i (min n (s.openContainers i)) := by
  unfold State.cancelOpen DemandQueue.cancel
  dsimp only
  split
  · rfl
  · unfold State.lowerOrdered State.takeOpen
    rw [State.modSlot_demand]
    exact (apply_ite State.demand ..)

/-- With no container open there is nothing to cancel. -/
theorem State.cancelOpen_none (bare : s.openContainers i = 0) (n : Nat) : s.cancelOpen i n = s := by
  simp [State.cancelOpen, bare]

theorem DemandQueue.openContainers_filter (d : DemandQueue) (i : SlotId) :
    DemandQueue.openContainers { d with lines := d.lines.filter (·.slot != i) } i = 0 := by
  have gone : (d.lines.filter (·.slot != i)).find? (·.slot == i) = none := by
    refine List.find?_eq_none.mpr fun y hy => ?_
    simpa using (List.mem_filter.mp hy).2
  simp [DemandQueue.openContainers, gone]

/-- A whole cancel leaves no container open. -/
theorem State.cancelOpen_whole (s : State) (i : SlotId) : (s.cancelOpen i (s.openContainers i)).openContainers i = 0 := by
  show (s.cancelOpen i (s.openContainers i)).demand.openContainers i = 0
  rw [State.cancelOpen_demand, Nat.min_self]
  unfold DemandQueue.cancel
  split
  next none_open => exact none_open
  next =>
    rw [if_pos (show s.demand.openContainers i ≤ s.openContainers i from Nat.le_refl _)]
    exact DemandQueue.openContainers_filter ..

/-! ## One slot -/

/-- The containers that an apply cancels of a slot's OPEN line (R56, R161, R162). -/
def State.cancels (s : State) (i : SlotId) : Nat :=
  let x := s.slot i
  let c := s.stagedConfig i
  let n := s.openContainers i
  if c = x.cfg ∨ x.cfg.kind = .sequenced then 0
  else if c.kind = .sequenced ∨ (c.status = .inactive ∧ x.cfg.status ≠ .inactive) then n
  else if c.mc < x.cfg.mc ∧ c.mc < x.ordered then min n (x.ordered - c.mc) else 0

/-- The record that an apply makes of a slot's, before it evaluates (R153, R161, R162). -/
def State.adjusted (s : State) (i : SlotId) : Slot :=
  let x := s.slot i
  let c := s.stagedConfig i
  let rebase (l : Line) : Option Marks := (s.seq l).rebased
  if c = x.cfg then x
  else match x.cfg.kind, c.kind with
    | .kanban, .kanban => { x with
        cfg := c, oh := min x.oh c.fullMp, ordered := x.ordered - s.cancels i
        disKind := if c.sameSensor x.cfg then x.disKind else none, disCount := if c.sameSensor x.cfg then x.disCount else 0 }
    | .kanban, .sequenced => { cfg := c, marks := rebase c.line }
    | .sequenced, .kanban => { cfg := c, oh := c.startMp, ordered := s.binsOut i }
    | .sequenced, .sequenced => { x with cfg := c, marks := if c.line = x.cfg.line then x.marks else rebase c.line }

/-- The containers that a slot which stays KANBAN cancels (R161). -/
def State.cancelsKanban (u : State) (i : SlotId) (old new : SlotConfig) : Nat :=
  if new.status = .inactive ∧ old.status ≠ .inactive then u.openContainers i
  else if new.mc < old.mc ∧ new.mc < (u.slot i).ordered then min (u.openContainers i) ((u.slot i).ordered - new.mc) else 0

/-- The two cancels of a slot that stays KANBAN come to one (R161). -/
theorem State.cancelTwice (u : State) (i : SlotId) (old new : SlotConfig) :
    let u2 := if new.status = .inactive ∧ old.status ≠ .inactive then u.cancelOpen i (u.openContainers i) else u
    (if new.mc < old.mc ∧ new.mc < (u2.slot i).ordered then u2.cancelOpen i ((u2.slot i).ordered - new.mc) else u2)
      = u.cancelOpen i (u.cancelsKanban i old new) := by
  unfold State.cancelsKanban
  by_cases stopped : new.status = .inactive ∧ old.status ≠ .inactive
  · simp only [if_pos stopped, State.cancelOpen_none (u.cancelOpen_whole i), ite_self]
  · simp only [if_neg stopped]
    split
    · unfold State.cancelOpen
      rw [Nat.min_comm (u.openContainers i), Nat.min_assoc, Nat.min_self]
    · simp [State.cancelOpen]

/-- What a slot that stays KANBAN becomes, and what it cancels (R153, R161). -/
theorem State.adjustKanban_eq (u : State) (i : SlotId) (old new : SlotConfig) :
    let k := u.cancelsKanban i old new
    (u.adjustKanban i old new).demand = u.demand.cancel i k ∧ (u.adjustKanban i old new).slot i = { u.slot i with
      oh := min (u.slot i).oh new.fullMp, ordered := (u.slot i).ordered - k
      disKind := if new.sameSensor old then (u.slot i).disKind else none
      disCount := if new.sameSensor old then (u.slot i).disCount else 0 } := by
  intro k
  let capped := u.modSlot i fun x => { x with oh := min x.oh new.fullMp }
  have slot : capped.slot i = { u.slot i with oh := min (u.slot i).oh new.fullMp } := State.slot_modSlot_self ..
  have same : capped.cancelsKanban i old new = k := by
    have ordered : (capped.slot i).ordered = (u.slot i).ordered := by rw [slot]
    unfold State.cancelsKanban
    rw [ordered]
    rfl
  have within : min k (capped.openContainers i) = k := by
    refine Nat.min_eq_left ?_
    show u.cancelsKanban i old new ≤ u.openContainers i
    unfold State.cancelsKanban
    split
    · exact Nat.le_refl _
    · split
      · exact Nat.min_le_left ..
      · exact Nat.zero_le _
  have twice := capped.cancelTwice i old new
  rw [same] at twice
  have whole : u.adjustKanban i old new = if new.sameSensor old then capped.cancelOpen i k
      else (capped.cancelOpen i k).modSlot i fun x => { x with disKind := none, disCount := 0 } := by rw [← twice]; rfl
  have record := capped.cancelOpen_record i k
  have demand := capped.cancelOpen_demand i k
  rw [within] at record demand
  rw [slot] at record
  rw [whole]
  cases new.sameSensor old with
  | true => exact ⟨demand, record⟩
  | false =>
    rw [if_neg Bool.false_ne_true, State.slot_modSlot_self, record]
    exact ⟨demand, rfl⟩

/-- What one slot's adjustment leaves: the queue with its containers cancelled, its record, its copy in the image (R160 to R162). -/
theorem adjustSlot_eq (s : State) (i : SlotId) (changed : s.stagedConfig i ≠ (s.slot i).cfg) :
    (s.adjustSlot i).demand = s.demand.cancel i (s.cancels i) ∧ (s.adjustSlot i).slot i = s.adjusted i := by
  unfold State.adjustSlot
  dsimp only
  generalize written : (s.modSlot i fun x => { x with cfg := s.stagedConfig i }).modImage
    (fun m => { m with slots := m.slots.set i (s.stagedConfig i) }) = u
  have slot : u.slot i = { s.slot i with cfg := s.stagedConfig i } := by rw [← written]; simp
  have seqs : u.seqs = s.seqs := by rw [← written]; rfl
  have demand : u.demand = s.demand := by rw [← written]; rfl
  have open_ : u.openContainers i = s.openContainers i := by rw [← written]; rfl
  have out : u.binsOut i = s.binsOut i := State.binsOut_routes (by rw [← written]; rfl) i
  unfold State.adjusted
  simp only [if_neg changed]
  cases hk : (s.slot i).cfg.kind <;> cases hk' : (s.stagedConfig i).kind <;> dsimp only
  · have cancels : u.cancelsKanban i (s.slot i).cfg (s.stagedConfig i) = s.cancels i := by
      simp [State.cancelsKanban, State.cancels, changed, hk, hk', open_, slot]
    have kept := u.adjustKanban_eq i (s.slot i).cfg (s.stagedConfig i)
    rw [cancels, demand, slot] at kept
    exact kept
  · have cancels : s.cancels i = s.openContainers i := by simp [State.cancels, changed, hk, hk']
    have gone := u.cancelOpen_demand i (u.openContainers i)
    have moved : (u.cancelOpen i (u.openContainers i)).seqs = s.seqs := by rw [(cancelOpen_moves i u _).seqs, seqs]
    rw [Nat.min_self, open_, demand, ← cancels] at gone
    unfold State.makeSequenced
    refine ⟨by rw [State.modSlot_demand, open_, ← cancels]; exact gone, ?_⟩
    rw [State.slot_modSlot_self]
    simp only [State.seq, moved]
  · have cancels : s.cancels i = 0 := by simp [State.cancels, hk]
    rw [cancels]
    exact ⟨demand, by rw [State.makeKanban, State.slot_modSlot_self, out]⟩
  · have cancels : s.cancels i = 0 := by simp [State.cancels, hk]
    rw [cancels]
    by_cases line : (s.stagedConfig i).line = (s.slot i).cfg.line
    · rw [if_pos line, if_pos line]
      exact ⟨demand, slot⟩
    · rw [if_neg line, if_neg line]
      refine ⟨demand, ?_⟩
      rw [State.slot_modSlot_self, slot]
      simp only [State.seq, seqs]

/-! ## The pass over the changed slots -/

/-- Two states agree on all that a slot's adjustment reads. -/
structure State.AgreesAt (s t : State) (j : SlotId) : Prop where
  slot : t.slot j = s.slot j
  staged : t.stagedConfig j = s.stagedConfig j
  lines : t.openContainers j = s.openContainers j
  seqs : t.seqs = s.seqs
  out : t.binsOut j = s.binsOut j

theorem State.AgreesAt.cancels (h : s.AgreesAt t j) : t.cancels j = s.cancels j := by
  unfold State.cancels
  rw [h.slot, h.staged, h.lines]

theorem State.AgreesAt.adjusted (h : s.AgreesAt t j) : t.adjusted j = s.adjusted j := by
  unfold State.adjusted
  rw [h.cancels, h.slot, h.staged, h.out]
  simp only [State.seq, h.seqs]

theorem DemandQueue.cancel_openContainers (d : DemandQueue) (k : Nat) (hj : j ≠ i) :
    (d.cancel i k).openContainers j = d.openContainers j := by
  unfold DemandQueue.cancel
  split
  · rfl
  · split
    · have same : (d.lines.filter (·.slot != i)).find? (·.slot == j) = d.lines.find? (·.slot == j) := by
        rw [List.find?_filter]
        refine find?_congr fun y _ => ?_
        by_cases h : y.slot = j
        · simp [h, hj]
        · simp [h]
      exact congrArg (fun o : Option DemandLine => (o.map (·.containers)).getD 0) same
    · let cut (x : DemandLine) : DemandLine := if x.slot == i then { x with containers := x.containers - k } else x
      have same : (d.lines.map cut).find? (·.slot == j) = d.lines.find? (·.slot == j) := by
        have kept (x : DemandLine) : (cut x).slot = x.slot := by simp only [cut]; split <;> rfl
        have test : (fun y : DemandLine => y.slot == j) ∘ cut = fun y => y.slot == j := funext fun y => by
          rw [Function.comp_apply, kept]
        rw [List.find?_map, test]
        cases found : d.lines.find? (·.slot == j) with
        | none => rfl
        | some y =>
          have slot : y.slot = j := by simpa using List.find?_some found
          have other : (y.slot == i) = false := by simpa [slot] using hj
          exact congrArg some (if_neg (Bool.eq_false_iff.mp other))
      exact congrArg (fun o : Option DemandLine => (o.map (·.containers)).getD 0) same

/-- One slot's adjustment leaves what the others' read. -/
theorem adjustSlot_agrees (s : State) (changed : s.stagedConfig i ≠ (s.slot i).cfg) (hj : j ≠ i) : s.AgreesAt (s.adjustSlot i) j where
  slot := (adjustSlot_moves s i).others j hj
  staged := by
    unfold State.stagedConfig
    rw [State.adjustSlot_image]
    simp [Fin.val_ne_of_ne hj.symm]
  lines := by
    show (s.adjustSlot i).demand.openContainers j = s.demand.openContainers j
    rw [(adjustSlot_eq s i changed).1, DemandQueue.cancel_openContainers _ _ hj]
  seqs := by rw [(adjustSlot_moves s i).rest]
  out := State.binsOut_routes (by rw [(adjustSlot_moves s i).rest]) j

/-- The pass over changed slots, each once: each is adjusted as it stood at the start. -/
theorem foldl_adjustSlot_eq : ∀ (is : List SlotId) (s : State), is.Nodup → (∀ i ∈ is, s.stagedConfig i ≠ (s.slot i).cfg) →
    (is.foldl State.adjustSlot s).demand = is.foldl (fun d i => d.cancel i (s.cancels i)) s.demand ∧
    (∀ j, (is.foldl State.adjustSlot s).slot j = if j ∈ is then s.adjusted j else s.slot j) ∧
    ∀ j : SlotId, (is.foldl State.adjustSlot s).image.slots[j] = if j ∈ is then s.stagedConfig j else s.image.slots[j]
  | [], s, _, _ => ⟨rfl, fun j => by simp, fun j => by simp⟩
  | i :: is, s, nodup, changed => by
    obtain ⟨fresh, nodup⟩ := List.nodup_cons.mp nodup
    have first := changed i List.mem_cons_self
    have agrees (j : SlotId) (hj : j ∈ is) : s.AgreesAt (s.adjustSlot i) j :=
      adjustSlot_agrees s first fun e => fresh (e ▸ hj)
    obtain ⟨demand, slot, image⟩ := foldl_adjustSlot_eq is (s.adjustSlot i) nodup fun j hj => by
      rw [(agrees j hj).staged, (agrees j hj).slot]
      exact changed j (List.mem_cons_of_mem _ hj)
    refine ⟨?_, fun j => ?_, fun j => ?_⟩
    · rw [List.foldl_cons, List.foldl_cons, demand, (adjustSlot_eq s i first).1]
      exact List.foldl_ext _ _ _ fun d j hj => by rw [(agrees j hj).cancels]
    · rw [List.foldl_cons, slot]
      by_cases hj : j ∈ is
      · rw [if_pos hj, if_pos (List.mem_cons_of_mem _ hj), (agrees j hj).adjusted]
      · rw [if_neg hj]
        by_cases e : j = i
        · subst e; rw [if_pos List.mem_cons_self, (adjustSlot_eq s j first).2]
        · rw [if_neg (by simp [e, hj])]
          exact (adjustSlot_moves s i).others j e
    · rw [List.foldl_cons, image]
      by_cases hj : j ∈ is
      · rw [if_pos hj, if_pos (List.mem_cons_of_mem _ hj), (agrees j hj).staged]
      · rw [if_neg hj, State.adjustSlot_image]
        by_cases e : j = i
        · subst e; simp
        · simp [e, hj, Fin.val_ne_of_ne (Ne.symm e)]

/-! ## The queue after the cancels -/

/-- What a cancel of k of n containers leaves of a line, if anything (R56). -/
def DemandLine.cancelled (y : DemandLine) (k n : Nat) : Option DemandLine :=
  if k = 0 then some y else if n ≤ k then none else some { y with containers := y.containers - k }

theorem DemandLine.cancelled_slot {y z : DemandLine} {k n : Nat} (h : y.cancelled k n = some z) : z.slot = y.slot := by
  unfold DemandLine.cancelled at h
  split at h
  · cases h; rfl
  · split at h
    · cases h
    · cases h; rfl

theorem DemandQueue.cancel_lines (d : DemandQueue) (i : SlotId) (k : Nat) : (d.cancel i k).lines =
    d.lines.filterMap fun y => if y.slot = i then y.cancelled k (d.openContainers i) else some y := by
  unfold DemandQueue.cancel
  by_cases hk : k = 0
  · rw [if_pos hk]
    simp [DemandLine.cancelled, hk]
  · rw [if_neg hk]
    split
    next whole =>
      show d.lines.filter _ = _
      rw [← List.filterMap_eq_filter]
      refine List.filterMap_congr fun y _ => ?_
      by_cases e : y.slot = i
      · simp [e, DemandLine.cancelled, hk, whole, Option.guard]
      · simp [e, Option.guard]
    next part =>
      show d.lines.map _ = _
      rw [← List.filterMap_eq_map]
      refine List.filterMap_congr fun y _ => ?_
      by_cases e : y.slot = i
      · simp [e, DemandLine.cancelled, hk, part]
      · simp [e]

/-- The lines after cancels of distinct slots, each with the containers it had at the start (R56). -/
theorem foldl_cancel_lines (k n : SlotId → Nat) : ∀ (is : List SlotId) (d : DemandQueue), is.Nodup →
    (∀ i ∈ is, d.openContainers i = n i) → (is.foldl (fun d i => d.cancel i (k i)) d).lines =
      d.lines.filterMap fun y => if y.slot ∈ is then y.cancelled (k y.slot) (n y.slot) else some y
  | [], d, _, _ => by simp
  | i :: is, d, nodup, counts => by
    obtain ⟨fresh, nodup⟩ := List.nodup_cons.mp nodup
    have later (j : SlotId) (hj : j ∈ is) : (d.cancel i (k i)).openContainers j = n j := by
      have other : j ≠ i := fun e => fresh (e ▸ hj)
      rw [DemandQueue.cancel_openContainers _ _ other]
      exact counts j (List.mem_cons_of_mem _ hj)
    rw [List.foldl_cons, foldl_cancel_lines k n is _ nodup later, DemandQueue.cancel_lines, List.filterMap_filterMap]
    refine List.filterMap_congr fun y _ => ?_
    by_cases e : y.slot = i
    · rw [if_pos e, counts i List.mem_cons_self, if_pos (by rw [e]; exact List.mem_cons_self), e]
      cases left : y.cancelled (k i) (n i) with
      | none => rfl
      | some z =>
        rw [Option.bind_some, if_neg (by rw [DemandLine.cancelled_slot left, e]; exact fresh)]
    · rw [if_neg e, Option.bind_some]
      simp only [List.mem_cons, e, false_or]

/-- The flags of a queue from which lines may have left: QUEUE_HIGH armed as the count stands below W, QUEUE_FULL re-armed where a
line left and the count stands below 112; the rest as it was (R59, R60). -/
structure DemandQueue.Thinned (d e : DemandQueue) : Prop where
  fewer : e.lines.length ≤ d.lines.length
  rest : e = { d with lines := e.lines, highArmed := e.highArmed, fullArmed := e.fullArmed }
  high : d.highArmed = decide (d.lines.length < d.watermark) → e.highArmed = decide (e.lines.length < e.watermark)
  full : e.fullArmed = (d.fullArmed || decide (e.lines.length < d.lines.length ∧ e.lines.length < 112))

theorem DemandQueue.Thinned.refl (d : DemandQueue) : d.Thinned d := ⟨Nat.le_refl _, rfl, id, by simp⟩

theorem DemandQueue.Thinned.trans {d e f : DemandQueue} (h : d.Thinned e) (k : e.Thinned f) : d.Thinned f := by
  have fewer := h.fewer
  have fewer' := k.fewer
  refine ⟨fewer'.trans fewer, by rw [k.rest, h.rest], k.high ∘ h.high, ?_⟩
  rw [k.full, h.full, Bool.or_assoc]
  congr 1
  rw [← Bool.decide_or, decide_eq_decide]
  omega

theorem DemandQueue.cancel_thinned (d : DemandQueue) (i : SlotId) {k : Nat} (within : k ≤ d.openContainers i) :
    d.Thinned (d.cancel i k) := by
  unfold DemandQueue.cancel
  split
  · exact .refl d
  next some_cancelled =>
    split
    next whole =>
      have fewer : (d.lines.filter (·.slot != i)).length < d.lines.length := by
        refine List.length_filter_lt_length_iff_exists.mpr ?_
        cases found : d.lines.find? (·.slot == i) with
        | none => simp [DemandQueue.openContainers, found] at within; omega
        | some y => exact ⟨y, List.mem_of_find?_eq_some found, by simpa using List.find?_some found⟩
      refine ⟨fewer.le, rfl, fun armed => ?_, ?_⟩
      · show (d.highArmed || decide ((d.lines.filter (·.slot != i)).length < d.watermark))
          = decide ((d.lines.filter (·.slot != i)).length < d.watermark)
        rw [armed, ← Bool.decide_or, decide_eq_decide]
        omega
      · show (d.fullArmed || decide _) = (d.fullArmed || decide _)
        congr 1
        rw [decide_eq_decide]
        exact ⟨fun h => ⟨fewer, h⟩, And.right⟩
    next part => exact ⟨by simp, rfl, by simp, by simp⟩

theorem foldl_cancel_thinned (k n : SlotId → Nat) (within : ∀ i, k i ≤ n i) : ∀ (is : List SlotId) (d : DemandQueue), is.Nodup →
    (∀ i ∈ is, d.openContainers i = n i) → d.Thinned (is.foldl (fun d i => d.cancel i (k i)) d)
  | [], d, _, _ => .refl d
  | i :: is, d, nodup, counts => by
    obtain ⟨fresh, nodup⟩ := List.nodup_cons.mp nodup
    refine .trans (d.cancel_thinned i ?_) (foldl_cancel_thinned k n within is _ nodup fun j hj => ?_)
    · rw [counts i List.mem_cons_self]; exact within i
    · have other : j ≠ i := fun e => fresh (e ▸ hj)
      rw [DemandQueue.cancel_openContainers _ _ other]
      exact counts j (List.mem_cons_of_mem _ hj)

theorem State.cancels_within (s : State) (i : SlotId) : s.cancels i ≤ s.openContainers i := by
  unfold State.cancels
  dsimp only
  split
  · exact Nat.zero_le _
  · split
    · exact Nat.le_refl _
    · split
      · exact Nat.min_le_left ..
      · exact Nat.zero_le _

/-! ## The tables, then the slots -/

/-- The live tables taken over, before the slots are adjusted (R160). -/
def State.tablesTaken (s : State) : State := s.applyGlobals.applyUsage.applyWindows.applyRoutes

theorem State.tablesTaken_eq (s : State) : s.tablesTaken = { s with
    usage := s.image.usage, coverage := s.image.windows, routes := s.tablesTaken.routes
    demand := { s.demand with
      ageStep := s.image.ageStep, watermark := s.image.watermark
      highArmed := decide (s.demand.lines.length < s.image.watermark) } } := by
  unfold State.tablesTaken
  rw [State.applyRoutes_rest]
  rfl

theorem State.tablesTaken_route (s : State) (r : RouteId) : s.tablesTaken.route r = (s.route r).applied s.image.routes[r] :=
  State.applyRoutes_route _ r

theorem State.tablesTaken_agrees (s : State) (i : SlotId) : s.AgreesAt s.tablesTaken i where
  slot := by
    have slots : s.tablesTaken.slots = s.slots := by rw [s.tablesTaken_eq]
    rw [State.slot, slots]; rfl
  staged := by
    have image : s.tablesTaken.image = s.image := by rw [s.tablesTaken_eq]
    rw [State.stagedConfig, image]; rfl
  lines := by
    have lines : s.tablesTaken.demand.lines = s.demand.lines := by rw [s.tablesTaken_eq]
    rw [State.openContainers, State.openLine, lines]; rfl
  seqs := by rw [s.tablesTaken_eq]
  out := State.binsOut_congr (fun r k => by
    unfold State.buffer
    rw [State.tablesTaken_route, Route.applied_buffers]
    exact ⟨rfl, rfl⟩) i

/-- The plan taken over, before any slot evaluates (R160). -/
def State.planCopied (s : State) : State := s.changedSlots.foldl State.adjustSlot s.tablesTaken

theorem State.applyImage_eq (s : State) (line : Option Line) (mode : ApplyMode) (seq : SeqNo) : s.applyImage line mode seq =
    (if s.mode = .cold then s.planCopied else s.changedSlots.foldl State.evaluate s.planCopied).raise
      (.planApplied line seq mode s.changedSlots.length) := rfl

theorem State.adjusted_unchanged (same : s.stagedConfig i = (s.slot i).cfg) : s.adjusted i = s.slot i := if_pos same

theorem State.adjusted_cfg (s : State) (i : SlotId) : (s.adjusted i).cfg = s.stagedConfig i := by
  by_cases same : s.stagedConfig i = (s.slot i).cfg
  · rw [State.adjusted_unchanged same, same]
  · unfold State.adjusted
    simp only [if_neg same]
    cases (s.slot i).cfg.kind <;> cases (s.stagedConfig i).kind <;> rfl

theorem State.cancels_unchanged (same : s.stagedConfig i = (s.slot i).cfg) : s.cancels i = 0 := if_pos (.inl same)

/-- What the copied plan is, part by part (R160 to R162). -/
theorem State.planCopied_parts (s : State) :
    s.planCopied.demand = s.changedSlots.foldl (fun d i => d.cancel i (s.cancels i)) s.tablesTaken.demand ∧
    (∀ i, s.planCopied.slot i = s.adjusted i) ∧
    ∀ i : SlotId, s.planCopied.image.slots[i]
      = if s.stagedConfig i = (s.slot i).cfg then s.image.slots[i] else s.stagedConfig i := by
  have agrees := s.tablesTaken_agrees
  obtain ⟨demand, slot, image⟩ := foldl_adjustSlot_eq s.changedSlots s.tablesTaken s.changedSlots_nodup fun i hi => by
    rw [(agrees i).staged, (agrees i).slot]
    exact (s.mem_changedSlots i).mp hi
  refine ⟨demand.trans (List.foldl_ext _ _ _ fun d i _ => by rw [(agrees i).cancels]), fun i => ?_, fun i => ?_⟩
  · refine (slot i).trans ?_
    by_cases same : s.stagedConfig i = (s.slot i).cfg
    · rw [if_neg fun h => (s.mem_changedSlots i).mp h same, (agrees i).slot, State.adjusted_unchanged same]
    · rw [if_pos ((s.mem_changedSlots i).mpr same), (agrees i).adjusted]
  · refine (image i).trans ?_
    have taken : s.tablesTaken.image = s.image := by rw [s.tablesTaken_eq]
    by_cases same : s.stagedConfig i = (s.slot i).cfg
    · rw [if_neg fun h => (s.mem_changedSlots i).mp h same, if_pos same, taken]
    · rw [if_pos ((s.mem_changedSlots i).mpr same), if_neg same, (agrees i).staged]

theorem State.planCopied_rest (s : State) : s.planCopied = { s with
    usage := s.image.usage, coverage := s.image.windows, slots := s.planCopied.slots, routes := s.tablesTaken.routes
    image := { s.image with slots := s.planCopied.image.slots }, demand := s.planCopied.demand } := by
  have image (is : List SlotId) : ∀ t : State, (is.foldl State.adjustSlot t).image
      = { t.image with slots := (is.foldl State.adjustSlot t).image.slots } := by
    induction is with
    | nil => exact fun _ => rfl
    | cons i is ih => intro t; rw [List.foldl_cons, ih, (adjustSlot_moves t i).image]
  have taken : s.tablesTaken.image = s.image := by rw [s.tablesTaken_eq]
  have copied : s.planCopied.image = { s.image with slots := s.planCopied.image.slots } := by
    rw [← taken]; exact image s.changedSlots s.tablesTaken
  rw [← copied]
  refine (foldl_adjustSlot_rest s.changedSlots s.tablesTaken).trans ?_
  change { s.tablesTaken with
    slots := s.planCopied.slots, demand := s.planCopied.demand, image := s.planCopied.image } = _
  have frame := s.tablesTaken_eq
  generalize s.tablesTaken = q at frame ⊢
  generalize s.planCopied = p
  rw [frame]

theorem State.planCopied_route (s : State) (r : RouteId) : s.planCopied.route r = (s.route r).applied s.image.routes[r] := by
  rw [← State.tablesTaken_route, State.route, s.planCopied_rest]
  rfl

/-- The lines after an apply's cancels (R56). -/
def State.linesKept (s : State) : List DemandLine :=
  s.demand.lines.filterMap fun y => y.cancelled (s.cancels y.slot) (s.openContainers y.slot)

/-- The queue after an apply's cancels (R56, R59, R60). -/
theorem State.planCopied_demand (s : State) : s.planCopied.demand = { s.demand with
    lines := s.linesKept, ageStep := s.image.ageStep, watermark := s.image.watermark
    highArmed := decide (s.linesKept.length < s.image.watermark)
    fullArmed := s.demand.fullArmed || decide (s.linesKept.length < s.demand.lines.length ∧ s.linesKept.length < 112) } := by
  obtain ⟨demand, -, -⟩ := s.planCopied_parts
  have taken : s.tablesTaken.demand = { s.demand with
      ageStep := s.image.ageStep, watermark := s.image.watermark
      highArmed := decide (s.demand.lines.length < s.image.watermark) } := by rw [s.tablesTaken_eq]
  have counts : ∀ i ∈ s.changedSlots, s.tablesTaken.demand.openContainers i = s.openContainers i :=
    fun i _ => (s.tablesTaken_agrees i).lines
  have lines := foldl_cancel_lines s.cancels s.openContainers s.changedSlots s.tablesTaken.demand s.changedSlots_nodup counts
  have thin := foldl_cancel_thinned s.cancels s.openContainers s.cancels_within s.changedSlots s.tablesTaken.demand
    s.changedSlots_nodup counts
  rw [← demand] at lines thin
  have kept : s.planCopied.demand.lines = s.linesKept := by
    rw [lines, taken]
    refine List.filterMap_congr fun y _ => ?_
    by_cases same : s.stagedConfig y.slot = (s.slot y.slot).cfg
    · rw [if_neg fun h => (s.mem_changedSlots _).mp h same, State.cancels_unchanged same]
      rfl
    · rw [if_pos ((s.mem_changedSlots _).mpr same)]
  have high := thin.high (by rw [taken])
  have full := thin.full
  have rest := thin.rest
  rw [taken] at rest full
  rw [kept] at high full rest
  rw [rest, high, full, rest]

/-! ## The statement's words -/

/-- The clamps of an apply (R159, R161). -/
theorem SlotConfig.applied_eq (c : SlotConfig) : c.applied = if c.kind = .kanban then { c with
    rop := min c.rop ((c.mc - 1) * c.cq), eye := min c.eye (c.mc * c.cq)
    start := match c.start with | .full => .full | .parts n => .parts (min n (c.mc * c.cq)) } else c := by
  unfold SlotConfig.applied
  cases c.kind <;> rfl

/-- Re-based marks (R29). -/
theorem LineSequence.rebased_eq (q : LineSequence) : q.rebased = q.last.map fun last =>
    match q.units with | [] => ⟨last, last⟩ | u :: _ => ⟨u.seq - 1, u.seq - 1⟩ := by
  unfold LineSequence.rebased
  cases q.last with
  | none => rfl
  | some last => cases q.units <;> rfl

/-- The undelivered bins of a slot in live manifests (R8, R162). -/
theorem State.binsOut_sum (s : State) (i : SlotId) : s.binsOut i =
    ((List.finRange 6).map fun r => ([Half.lower, .upper].map fun h =>
      if (s.buffer r h).state = .free then 0 else (((s.buffer r h).lines.filter fun y =>
        y.slot == i && y.state == .planned && match y.load with | .bin _ => true | .rack .. => false).map
        fun y => y.held - y.delivered).sum).sum).sum := by
  have part (b : Buffer) : b.binsFor i = if b.state = .free then 0 else ((b.lines.filter fun y =>
      y.slot == i && y.state == .planned && match y.load with | .bin _ => true | .rack .. => false).map
      fun y => y.held - y.delivered).sum := by
    have owed : owedBy b.lines i = ((b.lines.filter fun y =>
        y.slot == i && y.state == .planned && match y.load with | .bin _ => true | .rack .. => false).map
        fun y => y.held - y.delivered).sum := by
      induction b.lines with
      | nil => rfl
      | cons y ys ih =>
        rw [owedBy_cons, ih, List.filter_cons, ManifestLine.owes, ManifestLine.binOf, ManifestLine.undelivered]
        cases y.load with
        | rack => simp
        | bin c => by_cases hs : y.slot = i <;> by_cases hp : y.state = .planned <;> simp [hs, hp]
    unfold Buffer.binsFor Buffer.live
    rw [owed]
    cases b.state <;> rfl
  rw [State.binsOut_eq, State.poolSum]
  refine congrArg List.sum (List.map_congr_left fun r _ => ?_)
  rw [part, part]
  simp

theorem SlotConfig.sameSensor_iff (c d : SlotConfig) : c.sameSensor d = true ↔
    c.sensor = d.sensor ∧ c.eye = d.eye ∧ c.band = d.band ∧ c.policy = d.policy := by
  simp [SlotConfig.sameSensor, and_assoc]

theorem Route.counting_iff (x : Route) : x.counting = true ↔ x.cfg.timing.enabled = true ∧ (x.c ≠ 0 ∨ x.lap ≠ 0) := by
  simp [Route.counting]

/-! ## The evaluations after the copy -/

/-- The evaluations after an apply move demand, and of the records only the orders of changed KANBAN slots (R160). -/
theorem State.applyImage_moves (s : State) (line : Option Line) (mode : ApplyMode) (seq : SeqNo) :
    MovesDemand s.planCopied (s.applyImage line mode seq) ∧
    ∀ i, s.stagedConfig i = (s.slot i).cfg ∨ (s.stagedConfig i).kind = .sequenced →
      (s.applyImage line mode seq).slot i = s.planCopied.slot i := by
  have told (t : State) (e : Event) : MovesDemand t (t.raise e) := (raise_moves 0 t e).demand
  rw [State.applyImage_eq]
  split
  · exact ⟨told _ _, fun _ _ => rfl⟩
  · refine ⟨.trans (.foldl (fun t i => (evaluate_moves i t).demand) _ _) (told _ _), fun i still => ?_⟩
    show (s.changedSlots.foldl State.evaluate s.planCopied).slot i = _
    obtain ⟨-, touched, untouched⟩ := foldl_eachSlot (f := State.evaluate) (Q := fun _ => True)
      (R := fun _ x y => x.cfg.kind = .sequenced → y = x) (fun t j _ => (evaluate_moves j t).others) (fun _ _ _ => trivial)
      (fun t j _ sequenced => by rw [State.evaluate_sequenced sequenced]) s.changedSlots s.planCopied s.changedSlots_nodup trivial
    by_cases changed : i ∈ s.changedSlots
    · refine touched i changed ?_
      have sequenced := still.resolve_left ((s.mem_changedSlots i).mp changed)
      rw [s.planCopied_parts.2.1 i, State.adjusted_cfg]
      exact sequenced
    · exact untouched i changed

/-- The globals after an apply are the image's (R160). -/
theorem State.applyImage_globals (s : State) (line : Option Line) (mode : ApplyMode) (seq : SeqNo) :
    (s.applyImage line mode seq).demand.ageStep = s.image.ageStep ∧
      (s.applyImage line mode seq).demand.watermark = s.image.watermark := by
  have copied : s.planCopied.demand.ageStep = s.image.ageStep ∧ s.planCopied.demand.watermark = s.image.watermark := by
    rw [s.planCopied_demand]; exact ⟨rfl, rfl⟩
  rw [State.applyImage_eq, State.raise_demand]
  split
  · exact copied
  · have kept := (Work.foldl evaluate_work s.changedSlots s.planCopied).demand
    exact ⟨kept.ageStep.trans copied.1, kept.watermark.trans copied.2⟩

theorem State.changedSlots_length (s : State) : s.changedSlots.length =
    (List.finRange 192).countP fun i => decide (s.stagedConfig i ≠ (s.slot i).cfg) := by
  rw [State.changedSlots, ← List.countP_eq_length_filter]
  exact List.countP_congr fun i _ => by simp

/-! ## An apply taken again -/

/-- The clamps of an apply change nothing the second time (R159). -/
theorem SlotConfig.applied_applied (c : SlotConfig) : c.applied.applied = c.applied := by
  rw [SlotConfig.applied_eq c]
  split
  next kanban =>
    rw [SlotConfig.applied_eq, if_pos kanban]
    cases c.start <;> simp
  next sequenced => rw [SlotConfig.applied_eq, if_neg sequenced]

/-- A route that took its staged configuration takes it again without change (R94). -/
theorem Route.applied_applied (x : Route) (c : RouteConfig) : (x.applied c).applied c = x.applied c := by
  obtain ⟨same, e⟩ | ⟨other, on, e⟩ | ⟨other, off, e⟩ := x.applied_cases c
  · rw [e]; simp [Route.applied]
  · have running : ({ x with cfg := { c with timing := x.cfg.timing }, next := some c.timing } : Route).counting = true := on
    rw [e, Route.applied]
    simp only [if_neg other, running, if_true]
  · rw [e]; simp [Route.applied]

/-- QUEUE_HIGH is armed exactly below W (R59). -/
abbrev DemandQueue.ArmedBelow (d : DemandQueue) : Prop := d.highArmed = decide (d.lines.length < d.watermark)

theorem DemandQueue.ArmedBelow.withLine {d : DemandQueue} (h : d.ArmedBelow) (x : DemandLine) : (d.withLine x).ArmedBelow := by
  rw [DemandQueue.ArmedBelow, DemandQueue.withLine_highArmed, show d.highArmed = _ from h]
  show _ = decide ((d.lines ++ [x]).length < d.watermark)
  rw [List.length_append, List.length_singleton, ← Bool.decide_and, decide_eq_decide]
  omega

theorem order_armedBelow {n : Nat} (h : s.demand.ArmedBelow) : (s.order i n).demand.ArmedBelow := by
  cases line : s.openLine i with
  | some d =>
    rw [State.order_merged s i n line]
    show s.demand.highArmed = decide ((List.map _ s.demand.lines).length < s.demand.watermark)
    rw [List.length_map]
    exact h
  | none =>
    by_cases room : s.demand.lines.length < 112
    · rw [State.order_created s i n line room, State.created_eq]
      exact h.withLine _
    · rw [State.order_refused s i n line (Nat.le_of_not_lt room)]
      exact h

theorem evaluate_armedBelow (h : s.demand.ArmedBelow) (i : SlotId) : (s.evaluate i).demand.ArmedBelow := by
  unfold State.evaluate
  dsimp only
  split
  · exact h
  · split
    · exact h
    · split
      · exact h
      · exact order_armedBelow h

theorem applyImage_armedBelow (s : State) (line : Option Line) (mode : ApplyMode) (seq : SeqNo) :
    (s.applyImage line mode seq).demand.ArmedBelow := by
  have copied : s.planCopied.demand.ArmedBelow := by rw [s.planCopied_demand]
  have evaluated (is : List SlotId) : ∀ t : State, t.demand.ArmedBelow → (is.foldl State.evaluate t).demand.ArmedBelow := by
    induction is with
    | nil => exact fun _ h => h
    | cons i is ih => exact fun t h => ih _ (evaluate_armedBelow h i)
  rw [State.applyImage_eq, State.raise_demand]
  split
  · exact copied
  · exact evaluated _ _ copied

/-- The live tables and their copies in the image agree: nothing is left to apply. -/
structure State.PlanTaken (t : State) : Prop where
  usage : t.usage = t.image.usage
  coverage : t.coverage = t.image.windows
  age : t.demand.ageStep = t.image.ageStep
  watermark : t.demand.watermark = t.image.watermark
  armed : t.demand.ArmedBelow
  route : ∀ r : RouteId, (t.route r).applied t.image.routes[r] = t.route r
  slot : ∀ i, t.stagedConfig i = (t.slot i).cfg

/-- With nothing left to apply, an apply raises PLAN_APPLIED alone (R159, R160). -/
theorem State.PlanTaken.applyImage (h : t.PlanTaken) (line : Option Line) (mode : ApplyMode) (seq : SeqNo) :
    t.changedSlots = [] ∧ t.applyImage line mode seq = t.raise (.planApplied line seq mode 0) := by
  have unchanged : t.changedSlots = [] := List.filter_eq_nil_iff.mpr fun i _ => by simp [h.slot i]
  have routes : t.tablesTaken.routes = t.routes := Vector.ext fun k hk => by
    exact (t.tablesTaken_route ⟨k, hk⟩).trans (h.route ⟨k, hk⟩)
  have demand : { t.demand with
      ageStep := t.image.ageStep, watermark := t.image.watermark
      highArmed := decide (t.demand.lines.length < t.image.watermark) } = t.demand := by
    rw [← h.age, ← h.watermark, ← show t.demand.highArmed = _ from h.armed]
  have tables : t.tablesTaken = t := by rw [t.tablesTaken_eq, routes, demand, ← h.usage, ← h.coverage]
  have copied : t.planCopied = t := by rw [State.planCopied, unchanged]; exact tables
  refine ⟨unchanged, ?_⟩
  rw [State.applyImage_eq, copied, unchanged]
  simp

/-- After an apply there is nothing left to apply (R159, R161). -/
theorem applyImage_planTaken (s : State) (line : Option Line) (mode : ApplyMode) (seq : SeqNo) :
    (s.applyImage line mode seq).PlanTaken := by
  obtain ⟨-, slot, image⟩ := s.planCopied_parts
  have moves := (s.applyImage_moves line mode seq).1
  have kept : (s.applyImage line mode seq).image = { s.image with slots := s.planCopied.image.slots } := by
    rw [moves.image, s.planCopied_rest]
  obtain ⟨age, high⟩ := s.applyImage_globals line mode seq
  refine ⟨by rw [kept, s.applyImage_rest], by rw [kept, s.applyImage_rest], by rw [kept, age], by rw [kept, high],
    applyImage_armedBelow .., fun r => ?_, fun i => ?_⟩
  · rw [kept, State.applyImage_route]
    exact Route.applied_applied ..
  · rw [(moves.slot i).cfg, slot, State.adjusted_cfg, State.stagedConfig, kept]
    dsimp only
    rw [image]
    split
    · rfl
    · exact SlotConfig.applied_applied _

/-- The live records after an apply have their staged configurations (R160). -/
theorem applyImage_cfg (s : State) (line : Option Line) (mode : ApplyMode) (seq : SeqNo) (i : SlotId) :
    ((s.applyImage line mode seq).slot i).cfg = s.stagedConfig i := by
  rw [((s.applyImage_moves line mode seq).1.slot i).cfg, s.planCopied_parts.2.1, State.adjusted_cfg]

/-- A route that took its staged configuration has it, but for timing that waits (R94). -/
theorem Route.applied_cfg (x : Route) (c : RouteConfig) : { (x.applied c).cfg with timing := c.timing } = c := by
  obtain ⟨-, e⟩ | ⟨-, -, e⟩ | ⟨-, -, e⟩ := x.applied_cases c <;> rw [e]

/-! ## The plan and an advance's unit -/

/-- The apply state, the live tables and the image are as they were. -/
structure State.KeepsTables (s t : State) : Prop where
  applyState : t.applyState = s.applyState
  usage : t.usage = s.usage
  coverage : t.coverage = s.coverage
  image : t.image = s.image
  routes : t.routes = s.routes
  age : t.demand.ageStep = s.demand.ageStep
  watermark : t.demand.watermark = s.demand.watermark
  cfg : ∀ i, (t.slot i).cfg = (s.slot i).cfg

/-- A unit's draws and its starvation test keep the tables (R33). -/
theorem State.afterUnit_keepsTables (s : State) (l : Line) (v : Variant) (seq : SeqNo) (listed : Bool) :
    s.KeepsTables (s.afterUnit l v seq listed) := by
  have demand : s.demand.Keeps (s.afterDraws l v seq).demand := by rw [← State.drawLine_eq]; exact (drawLine_work ..).demand
  rw [State.afterUnit_rest]
  refine ⟨?_, ?_, ?_, ?_, ?_, demand.ageStep, demand.watermark, fun i => s.afterDraws_cfg l v seq i⟩
  all_goals rw [State.afterDraws_rest]

end Sys2Proof.Machine

open Sys2Proof Sys2Proof.Machine

/-- Settles O54: the copy of the plan, part by part, then the evaluations. -/
theorem applyCopiesThePlan : Obligations.ApplyCopiesThePlan := by
  intro s held new changed rebase binsOut cancelled lines adjusted
  have new_eq : new = s.stagedConfig := funext fun i => (SlotConfig.applied_eq _).symm
  have changed_eq : changed = s.changedSlots := by
    simp only [changed, new_eq]
    exact List.filter_congr fun i _ => by simp only [bne, beq_eq_decide, decide_not, ne_eq]
  have cancelled_eq : cancelled = s.cancels := by
    funext i
    simp only [cancelled, new_eq]
    rfl
  have lines_eq : lines = s.linesKept := by
    simp only [lines, cancelled_eq]
    rfl
  have adjusted_eq : adjusted = s.adjusted := by
    funext i
    have based (l : Line) : rebase l = (s.seq l).rebased := (LineSequence.rebased_eq _).symm
    have out : binsOut i = s.binsOut i := (s.binsOut_sum i).symm
    simp only [adjusted, new_eq, cancelled_eq, based, out]
    unfold State.adjusted
    refine ite_congr rfl (fun _ => rfl) fun _ => ?_
    cases (s.slot i).cfg.kind <;> cases (s.stagedConfig i).kind <;> dsimp only
    · simp only [SlotConfig.sameSensor_iff]
      rfl
    · rfl
  clear_value adjusted lines cancelled changed new
  subst adjusted_eq lines_eq cancelled_eq changed_eq new_eq
  obtain ⟨-, slot, image⟩ := s.planCopied_parts
  have routes : s.planCopied.routes = s.tablesTaken.routes := by rw [s.planCopied_rest]
  refine ⟨fun line mode seq => ⟨s.planCopied, ?_, slot, image, fun r => ?_, rfl⟩, fun line hs idle => ?_⟩
  · rw [← State.planCopied_demand, routes]
    exact s.planCopied_rest
  · intro x c counting
    rw [s.planCopied_route r]
    have running : x.counting = true ↔ counting := x.counting_iff
    obtain ⟨same, e⟩ | ⟨other, on, e⟩ | ⟨other, off, e⟩ := x.applied_cases c
    · exact ⟨fun _ => e, fun other => absurd same other, fun other => absurd same other⟩
    · exact ⟨fun same => absurd same other, fun _ _ => e, fun _ stopped => absurd (running.mp on) stopped⟩
    · exact ⟨fun same => absurd same other, fun _ h => absurd (running.mpr h) (by rw [off]; decide), fun _ _ => e⟩
  · obtain ⟨moves, still⟩ := s.applyImage_moves none .immediate 0
    have taken := exec_replies (i := .apply .ep (some .immediate) line) hs rfl rfl (applyRequest_now idle line)
    obtain ⟨age, high⟩ := s.applyImage_globals none .immediate 0
    rw [State.changedSlots_length] at taken
    refine ⟨_, taken, reply_answers (by rw [s.applyImage_rest]), rfl, ?_, age, high, fun i => ⟨?_, fun unmoved => ?_⟩⟩
    · have rest := s.applyImage_rest none .immediate 0
      dsimp only at rest
      generalize s.applyImage none .immediate 0 = u at rest ⊢
      rw [rest]
      rfl
    · rw [reply_slot, ← slot i]; exact moves.slot i
    · rw [reply_slot, ← slot i]; exact still i unmoved

/-- Settles O55: after the first apply there is nothing left to apply. -/
theorem applyAgainChangesNothing : Obligations.ApplyAgainChangesNothing := by
  intro s t line hs idle first
  have taken := exec_replies (i := .apply .ep (some .immediate) line) hs rfl rfl (applyRequest_now idle line)
  obtain rfl : reply .ep .ok (.changed s.changedSlots.length) (s.applyImage none .immediate 0) = t :=
    Host.Outcome.next.inj (taken.symm.trans first)
  have after : (reply .ep .ok (.changed s.changedSlots.length) (s.applyImage none .immediate 0)).PlanTaken := by
    obtain ⟨h1, h2, h3, h4, h5, h6, h7⟩ := applyImage_planTaken s none .immediate 0
    exact ⟨h1, h2, h3, h4, h5, h6, h7⟩
  have high : (reply .ep .ok (.changed s.changedSlots.length) (s.applyImage none .immediate 0)).resetN = .high := by
    rw [reply_resetN, s.applyImage_rest]; exact hs
  have still : (reply .ep .ok (.changed s.changedSlots.length) (s.applyImage none .immediate 0)).applyState = .idle := by
    rw [reply_applyState, s.applyImage_rest]; exact idle
  generalize reply .ep .ok (.changed s.changedSlots.length) (s.applyImage none .immediate 0) = t at after high still ⊢
  obtain ⟨unchanged, again⟩ := after.applyImage none .immediate 0
  have owner := applyRequest_now still line
  rw [unchanged, again] at owner
  exact ⟨_, exec_replies (i := .apply .ep (some .immediate) line) high rfl rfl owner, reply_answers rfl, rfl⟩

/-- Settles O38: a marked advance on the armed line takes the plan before its unit; any other leaves it. -/
theorem markedAdvanceTakesTheArmedPlan : Obligations.MarkedAdvanceTakesTheArmedPlan := by
  intro s l seq v mark hs active units marked listed settled
  obtain ⟨taken, -⟩ := exec_advance hs active l seq v mark
  refine ⟨_, taken, fun mark_on armed => ?_, fun unmarked => ?_⟩
  · have whole := takeAdvance_planned (v := v) (show s.takesPlan l seq mark from ⟨armed, mark_on⟩)
    have kept := (settled.planTaken l seq).afterUnit_keepsTables l v seq listed
    have image : settled.image = s.image := State.afterSettling_image ..
    have planned := settled.applyImage_rest (some l) .atMark seq
    obtain ⟨age, high⟩ := settled.applyImage_globals (some l) .atMark seq
    have route (r : RouteId) : ((settled.planTaken l seq).afterUnit l v seq listed).route r = (s.route r).applied s.image.routes[r] := by
      have before : settled.route r = s.route r := by rw [State.route, State.afterSettling_routes]; rfl
      rw [State.route, kept.routes, ← before, ← image]
      exact State.applyImage_route settled (some l) .atMark seq r
    rw [whole]
    refine ⟨rfl, ?_⟩
    generalize (settled.planTaken l seq).afterUnit l v seq listed = u at kept route ⊢
    refine ⟨kept.applyState, kept.usage.trans ?_, kept.coverage.trans ?_, kept.age.trans (age.trans (by rw [image])),
      kept.watermark.trans (high.trans (by rw [image])), fun i => (kept.cfg i).trans ?_, fun r => ?_⟩
    · show (settled.applyImage (some l) .atMark seq).usage = _
      rw [planned, image]
    · show (settled.applyImage (some l) .atMark seq).coverage = _
      rw [planned, image]
    · refine (applyImage_cfg settled (some l) .atMark seq i).trans ?_
      rw [State.stagedConfig, image]
    · rw [reply_route]
      refine Eq.trans (congrArg (fun x : Route => { x.cfg with timing := s.image.routes[r].timing }) (route r)) ?_
      exact Route.applied_cfg ..
  · have whole := takeAdvance_plain (v := v) (show ¬s.takesPlan l seq mark from fun ⟨armed, mark_on⟩ => unmarked ⟨mark_on, armed⟩)
    have kept := settled.afterUnit_keepsTables l v seq listed
    rw [whole]
    refine ⟨rfl, kept.applyState.trans ?_, kept.usage.trans ?_, kept.coverage.trans ?_, kept.image.trans ?_, kept.routes.trans ?_,
      fun i => (kept.cfg i).trans (by rw [State.afterSettling_slot])⟩
    all_goals simp only [settled]
    all_goals rw [State.afterSettling_frame]

end

section
/-!
PROOFS: a snapshot. What checking one slot comes to, by the statement's words, and what the pass over the bank's slots does and counts.
-/

namespace Sys2Proof.Machine

open Sys2Proof

variable {s u : State} {i : SlotId} {bank : Nat} {states : Vector SensorState 32}

/-! ## One slot's check in the rules' words -/

/-- The sensor that a snapshot of a bank reads for a slot (R144). -/
def Slot.boundIn (x : Slot) (bank : Nat) : Option (Fin 64) :=
  if x.cfg.kind = .kanban ∧ x.cfg.status ≠ .inactive then x.cfg.sensor.filter fun n => n.val / 32 == bank else none

/-- The disagreement that a snapshot finds, if any (R145). -/
def Slot.verdict (x : Slot) (bank : Nat) (states : Vector SensorState 32) : Option DiscKind :=
  (x.boundIn bank).bind fun n => x.compare states[n.val % 32]

/-- The snapshot brings the slot's count to 4 (R147). -/
def Slot.reachesFour (x : Slot) (bank : Nat) (states : Vector SensorState 32) : Bool :=
  (x.verdict bank states).any fun k => x.disCount == 3 && x.disKind == some k

/-- A checked slot's record, before a resync's evaluation (R146 to R149). -/
def Slot.checked (x : Slot) (bank : Nat) (states : Vector SensorState 32) : Slot :=
  let y := x.moved (x.verdict bank states)
  if x.reachesFour bank states then match x.cfg.policy with
    | .report => { y with discrepant := x.verdict bank states }
    | .withhold => { y with discrepant := x.verdict bank states, withheld := true }
    | .resync =>
      let oh := min (x.cfg.eye * 1000) (x.cfg.mc * x.cfg.cq * 1000)
      { x with
        oh := oh, resyncs := min (x.resyncs + 1) 65535, disKind := none, disCount := 0
        discrepant := x.verdict bank states, short := x.short && decide (oh = 0) }
  else y

/-- The check of one slot with a given record: the record, DISCREPANCY, a resync's evaluation (R147 to R149). -/
def State.checkedWith (u : State) (x : Slot) (bank : Nat) (states : Vector SensorState 32) (i : SlotId) : State :=
  if x.boundIn bank = none then u
  else
    let v := { u with slots := u.slots.set i (x.checked bank states) }
    let w := match x.verdict bank states with
      | some k => if x.reachesFour bank states = true ∧ x.discrepant = none then v.raise (.discrepancy i k x.cfg.policy) else v
      | none => v
    if x.reachesFour bank states = true ∧ x.cfg.policy = .resync then w.evaluate i else w

theorem Slot.checkedBy_iff (x : Slot) : x.checkedBy bank = true ↔ x.boundIn bank ≠ none := by
  unfold Slot.checkedBy Slot.boundIn SlotConfig.running
  split
  next live => simp [live.1, live.2, Option.filter_eq_none_iff, Option.any_eq_true]
  next dead =>
    simp only [ne_eq, not_true_eq_false, iff_false, Bool.and_eq_true, beq_iff_eq, bne_iff_ne]
    exact fun ⟨⟨kanban, live⟩, _⟩ => dead ⟨kanban, live⟩

theorem Slot.boundIn_some {x : Slot} {n : Fin 64} (h : x.boundIn bank = some n) : x.cfg.sensor = some n := by
  unfold Slot.boundIn at h
  split at h
  · exact (Option.filter_eq_some_iff.mp h).1
  · cases h

theorem Slot.verdict_bound {x : Slot} {n : Fin 64} (h : x.boundIn bank = some n) :
    x.verdict bank states = x.compare states[n.val % 32] := by
  unfold Slot.verdict; rw [h]; rfl

theorem Slot.verdict_unbound {x : Slot} (h : x.boundIn bank = none) : x.verdict bank states = none := by
  unfold Slot.verdict; rw [h]; rfl

theorem Slot.reachesFour_unbound {x : Slot} (h : x.boundIn bank = none) : x.reachesFour bank states = false := by
  unfold Slot.reachesFour; rw [x.verdict_unbound h]; rfl

theorem Slot.checked_below {x : Slot} (h : x.reachesFour bank states = false) :
    x.checked bank states = x.moved (x.verdict bank states) := by
  unfold Slot.checked; rw [h]; rfl

theorem Slot.reachesFour_iff {x : Slot} {k : DiscKind} (found : x.verdict bank states = some k) :
    x.reachesFour bank states = true ↔ x.disCount = 3 ∧ x.disKind = some k := by
  unfold Slot.reachesFour; rw [found]; simp

theorem Slot.reachesFour_verdict {x : Slot} (h : x.reachesFour bank states = true) : ∃ k, x.verdict bank states = some k := by
  cases found : x.verdict bank states with
  | none => rw [Slot.reachesFour, found] at h; cases h
  | some k => exact ⟨k, rfl⟩

/-- A record that reaches 4 with a kind (R146). -/
theorem Slot.moved_atFour {x : Slot} {k : DiscKind} (count : x.disCount = 3) (kind : x.disKind = some k) :
    x.moved (some k) = { x with disCount := 4 } := by
  unfold Slot.moved
  dsimp only
  rw [if_pos kind, count]
  rfl

theorem Slot.checked_four {x : Slot} {k : DiscKind} (found : x.verdict bank states = some k)
    (four : x.reachesFour bank states = true) : x.checked bank states = match x.cfg.policy with
      | .report => { x with disCount := 4, discrepant := some k }
      | .withhold => { x with disCount := 4, discrepant := some k, withheld := true }
      | .resync => ({ x with disCount := 4, discrepant := some k } : Slot).resynced := by
  obtain ⟨count, kind⟩ := (x.reachesFour_iff found).mp four
  unfold Slot.checked
  rw [four, found, Slot.moved_atFour count kind]
  cases x.cfg.policy <;> rfl

theorem Slot.checked_resync {x : Slot} (four : x.reachesFour bank states = true) (policy : x.cfg.policy = .resync) :
    x.checked bank states =
      let oh := min (x.cfg.eye * 1000) (x.cfg.mc * x.cfg.cq * 1000)
      { x with
        oh := oh, resyncs := min (x.resyncs + 1) 65535, disKind := none, disCount := 0
        discrepant := x.verdict bank states, short := x.short && decide (oh = 0) } := by
  unfold Slot.checked
  rw [four, policy]
  rfl

theorem Slot.checked_report {x : Slot} (four : x.reachesFour bank states = true) (policy : x.cfg.policy = .report) :
    x.checked bank states = { x with disCount := 4, discrepant := x.verdict bank states } := by
  obtain ⟨k, found⟩ := Slot.reachesFour_verdict four
  rw [Slot.checked_four found four, policy, found]

theorem Slot.checked_withhold {x : Slot} (four : x.reachesFour bank states = true) (policy : x.cfg.policy = .withhold) :
    x.checked bank states = { x with disCount := 4, discrepant := x.verdict bank states, withheld := true } := by
  obtain ⟨k, found⟩ := Slot.reachesFour_verdict four
  rw [Slot.checked_four found four, policy, found]

theorem State.raiseIf_modSlot (u : State) (c : Prop) [Decidable c] (e : Event) (i : SlotId) (f : Slot → Slot) :
    (if c then u.raise e else u).modSlot i f = if c then (u.modSlot i f).raise e else u.modSlot i f := by
  split <;> rfl

/-- Declaring a discrepancy on a record written once (R147 to R149). -/
theorem State.reachFour_eq (u : State) (i : SlotId) {k : DiscKind} (found : (u.slot i).verdict bank states = some k)
    (bound : (u.slot i).boundIn bank ≠ none) (four : (u.slot i).reachesFour bank states = true) :
    (u.modSlot i fun x => x.moved (some k)).reachFour i k = u.checkedWith (u.slot i) bank states i := by
  obtain ⟨count, kind⟩ := ((u.slot i).reachesFour_iff found).mp four
  have moved := Slot.moved_atFour count kind
  have declared : (u.modSlot i fun x => x.moved (some k)).modSlot i (fun x => { x with discrepant := some k })
      = { u with slots := u.slots.set i { u.slot i with disCount := 4, discrepant := some k } } := by
    rw [State.modSlot_of_set (s := u) (y := (u.slot i).moved (some k)) rfl, moved]
    rfl
  unfold State.reachFour State.checkedWith
  simp only [if_neg bound, found, four, true_and, State.slot_modSlot_self, declared, moved,
    Slot.checked_four found four]
  generalize hv : ({ u with slots := u.slots.set i { u.slot i with disCount := 4, discrepant := some k } } : State) = v
  have slot : v.slot i = { u.slot i with disCount := 4, discrepant := some k } := by rw [← hv]; exact State.slot_of_set rfl
  have again (f : Slot → Slot) : v.modSlot i f
      = { u with slots := u.slots.set i (f { u.slot i with disCount := 4, discrepant := some k }) } := by
    rw [← hv]; exact State.modSlot_of_set (s := u) rfl f
  have policy (c : Prop) [Decidable c] (e : Event) :
      ((if c then v.raise e else v).slot i).cfg.policy = (u.slot i).cfg.policy := by
    rw [show (if c then v.raise e else v).slot i = v.slot i by split <;> rfl, slot]
  unfold State.actPolicy
  rw [policy]
  cases hp : (u.slot i).cfg.policy with
  | report => simp only [reduceCtorEq, if_false, hv]
  | resync => simp only [State.raiseIf_modSlot, again, if_true]
  | withhold => simp only [State.raiseIf_modSlot, again, reduceCtorEq, if_false]

/-- Checking a bound slot, whole (R144 to R149). -/
theorem checkSlot_eq (w : SnapshotWork) {i : SlotId} (bound : (w.st.slot i).boundIn bank ≠ none) : checkSlot states w i = {
    st := w.st.checkedWith (w.st.slot i) bank states i
    disagreed := w.disagreed + if ((w.st.slot i).verdict bank states).isSome then 1 else 0
    declared := w.declared +
      if (w.st.slot i).reachesFour bank states && (w.st.slot i).discrepant.isNone then 1 else 0 } := by
  obtain ⟨n, hn⟩ := Option.ne_none_iff_exists'.mp bound
  have verdict := (w.st.slot i).verdict_bound (states := states) hn
  have below (h : (w.st.slot i).reachesFour bank states = false) : w.st.checkedWith (w.st.slot i) bank states i =
      w.st.modSlot i fun x => x.moved ((w.st.slot i).verdict bank states) := by
    unfold State.checkedWith
    simp only [if_neg bound, h, Bool.false_eq_true, false_and, if_false, Slot.checked_below h]
    split <;> rfl
  obtain ⟨agree, e⟩ | ⟨k, found, short, e⟩ | ⟨k, found, count, kind, e⟩ := checkSlot_cases states w (Slot.boundIn_some hn)
  · rw [← verdict] at agree
    have under : (w.st.slot i).reachesFour bank states = false := by rw [Slot.reachesFour, agree]; rfl
    rw [e, below under, ← verdict, agree, under]
    rfl
  · rw [← verdict] at found
    have under : (w.st.slot i).reachesFour bank states = false :=
      Bool.eq_false_iff.mpr fun h => short ((Slot.reachesFour_iff found).mp h)
    rw [e, below under, ← verdict, found, under]
    rfl
  · rw [← verdict] at found
    have four := (Slot.reachesFour_iff found).mpr ⟨count, kind⟩
    rw [e, ← verdict, found, State.reachFour_eq _ _ found bound four, four]
    simp only [Option.isSome_some, if_true, Bool.true_and, Option.isNone_iff_eq_none]
    congr 1
    split <;> rfl

/-! ## The pass -/

/-- A check writes the record, may raise a notice, and evaluates for a resync alone (R147 to R149). -/
theorem State.checkedWith_cases (u : State) {x : Slot} (i : SlotId) (bound : x.boundIn bank ≠ none) : ∃ v : State,
    v = { u with slots := u.slots.set i (x.checked bank states), queues := v.queues } ∧
    u.checkedWith x bank states i = if x.reachesFour bank states = true ∧ x.cfg.policy = .resync then v.evaluate i else v := by
  unfold State.checkedWith
  rw [if_neg bound]
  refine ⟨_, ?_, rfl⟩
  split
  · split <;> rfl
  · rfl

theorem State.checkedWith_unbound (u : State) {x : Slot} (i : SlotId) (free : x.boundIn bank = none) :
    u.checkedWith x bank states i = u := if_pos free

theorem State.checkedWith_only (u : State) (x : Slot) (i : SlotId) : OnlySlot u (u.checkedWith x bank states i) i := by
  intro j hj
  by_cases bound : x.boundIn bank = none
  · rw [u.checkedWith_unbound i bound]
  · obtain ⟨v, rest, e⟩ := u.checkedWith_cases (states := states) i bound
    have other : v.slot j = u.slot j := State.others_of_set (by rw [rest]) j hj
    rw [e]
    split
    · rw [(evaluate_moves i v).others j hj, other]
    · exact other

/-- What a check leaves of a bound slot's record (R146 to R149). -/
theorem State.checkedWith_slot (u : State) {x : Slot} (i : SlotId) (bound : x.boundIn bank ≠ none) :
    SameButOrders (x.checked bank states) ((u.checkedWith x bank states i).slot i) ∧
    (¬(x.reachesFour bank states = true ∧ x.cfg.policy = .resync) →
      (u.checkedWith x bank states i).slot i = x.checked bank states) := by
  obtain ⟨v, rest, e⟩ := u.checkedWith_cases (states := states) i bound
  have slot : v.slot i = x.checked bank states := State.slot_of_set (s := u) (by rw [rest])
  rw [e]
  split
  next resync => exact ⟨slot ▸ (evaluate_moves i v).own, fun h => absurd resync h⟩
  next => exact ⟨slot ▸ .refl _, fun _ => slot⟩

/-- The pass over a bank's slots, each as it stood: what it does, and what it counts (R144). -/
theorem foldl_checkSlot_eq (s : State) : ∀ (is : List SlotId) (w : SnapshotWork), is.Nodup → (∀ i ∈ is, w.st.slot i = s.slot i) →
    is.foldl (fun w i => if (s.slot i).checkedBy bank then checkSlot states w i else w) w = {
      st := is.foldl (fun u i => u.checkedWith (s.slot i) bank states i) w.st
      disagreed := w.disagreed + is.countP fun i => ((s.slot i).verdict bank states).isSome
      declared := w.declared + is.countP fun i => (s.slot i).reachesFour bank states && (s.slot i).discrepant.isNone }
  | [], w, _, _ => rfl
  | i :: is, w, nodup, same => by
    obtain ⟨fresh, nodup⟩ := List.nodup_cons.mp nodup
    have own := same i List.mem_cons_self
    have later {v : SnapshotWork} (hv : OnlySlot w.st v.st i) (j : SlotId) (hj : j ∈ is) : v.st.slot j = s.slot j :=
      (hv j fun e => fresh (e ▸ hj)).trans (same j (List.mem_cons_of_mem _ hj))
    rw [List.foldl_cons, List.foldl_cons, List.countP_cons, List.countP_cons]
    by_cases bound : (s.slot i).boundIn bank = none
    · rw [if_neg fun h => (Slot.checkedBy_iff _).mp h bound, foldl_checkSlot_eq s is w nodup (later fun _ _ => rfl),
        State.checkedWith_unbound _ i bound, Slot.verdict_unbound bound, Slot.reachesFour_unbound bound]
      rfl
    · have checked := checkSlot_eq (states := states) w (i := i) (by rw [own]; exact bound)
      rw [own] at checked
      rw [if_pos ((Slot.checkedBy_iff _).mpr bound), foldl_checkSlot_eq s is _ nodup (later (checkSlot_rest states w i).2),
        checked]
      simp only [Nat.add_assoc, Nat.add_comm]

/-- A bank's checks, in ascending slot number (R144). -/
def State.snapshotTaken (s : State) (bank : Nat) (states : Vector SensorState 32) : State :=
  (List.finRange 192).foldl (fun u i => u.checkedWith (s.slot i) bank states i) s

theorem sensorSnapshot_ok (active : s.mode = .active) (known : bank ≤ 1) : sensorSnapshot .lp bank states s =
    reply .lp .ok (.snapshot ((List.finRange 192).countP fun i => ((s.slot i).boundIn bank).isSome)
      ((List.finRange 192).countP fun i => ((s.slot i).verdict bank states).isSome)
      ((List.finRange 192).countP fun i => (s.slot i).reachesFour bank states && (s.slot i).discrepant.isNone))
      (s.snapshotTaken bank states) := by
  have count : (s.slotsWhere (Slot.checkedBy bank)).length = (List.finRange 192).countP fun i => ((s.slot i).boundIn bank).isSome := by
    rw [State.slotsWhere, ← List.countP_eq_length_filter]
    exact List.countP_congr fun i _ => by rw [Slot.checkedBy_iff, Option.isSome_iff_ne_none]
  unfold sensorSnapshot
  rw [if_neg (by simp [active]), if_neg (by omega)]
  dsimp only
  rw [count, State.slotsWhere, List.foldl_filter, foldl_checkSlot_eq s slotIds ⟨s, 0, 0⟩ slotIds_nodup fun _ _ => rfl]
  simp only [Nat.zero_add]
  rfl

theorem State.snapshotTaken_rest (s : State) (bank : Nat) (states : Vector SensorState 32) :
    s.snapshotTaken bank states = { s with
      slots := (s.snapshotTaken bank states).slots, demand := (s.snapshotTaken bank states).demand
      queues := (s.snapshotTaken bank states).queues } := by
  have one (u : State) (x : Slot) (i : SlotId) : u.checkedWith x bank states i = { u with
      slots := (u.checkedWith x bank states i).slots, demand := (u.checkedWith x bank states i).demand
      queues := (u.checkedWith x bank states i).queues } := by
    by_cases bound : x.boundIn bank = none
    · rw [u.checkedWith_unbound i bound]
    · obtain ⟨v, rest, e⟩ := u.checkedWith_cases (states := states) i bound
      rw [e]
      split
      · rw [(evaluate_moves i v).rest, rest]
      · rw [rest]
  have all (is : List SlotId) : ∀ u : State, is.foldl (fun u i => u.checkedWith (s.slot i) bank states i) u = { u with
      slots := (is.foldl (fun u i => u.checkedWith (s.slot i) bank states i) u).slots
      demand := (is.foldl (fun u i => u.checkedWith (s.slot i) bank states i) u).demand
      queues := (is.foldl (fun u i => u.checkedWith (s.slot i) bank states i) u).queues } := by
    induction is with
    | nil => exact fun _ => rfl
    | cons i is ih => intro u; rw [List.foldl_cons, ih, one u]
  exact all _ s

/-- What a snapshot leaves of every record (R146 to R149). -/
theorem State.snapshotTaken_slot (s : State) (bank : Nat) (states : Vector SensorState 32) (i : SlotId) :
    ((s.slot i).boundIn bank = none → (s.snapshotTaken bank states).slot i = s.slot i) ∧
    ((s.slot i).boundIn bank ≠ none →
      SameButOrders ((s.slot i).checked bank states) ((s.snapshotTaken bank states).slot i) ∧
      (¬((s.slot i).reachesFour bank states = true ∧ (s.slot i).cfg.policy = .resync) →
        (s.snapshotTaken bank states).slot i = (s.slot i).checked bank states)) := by
  obtain ⟨-, each, -⟩ := foldl_eachSlot (f := fun u i => u.checkedWith (s.slot i) bank states i) (Q := fun _ => True)
    (R := fun i x y => ((s.slot i).boundIn bank = none → y = x) ∧ ((s.slot i).boundIn bank ≠ none →
      SameButOrders ((s.slot i).checked bank states) y ∧
      (¬((s.slot i).reachesFour bank states = true ∧ (s.slot i).cfg.policy = .resync) → y = (s.slot i).checked bank states)))
    (fun u j _ => u.checkedWith_only _ j) (fun _ _ _ => trivial)
    (fun u j _ => ⟨fun free => by rw [u.checkedWith_unbound j free], fun bound => u.checkedWith_slot j bound⟩)
    slotIds s slotIds_nodup trivial
  exact each i (mem_slotIds i)

end Sys2Proof.Machine

open Sys2Proof Sys2Proof.Machine

/-- Settles O40: the pass over the bank's slots, each as it stood. -/
theorem snapshotChecksEachBoundSlot : Obligations.SnapshotChecksEachBoundSlot := by
  refine fun s bank states hs => ⟨fun active known => ?_, fun idle => ?_, fun active unknown => ?_⟩
  · intro bound result reaches count checked u
    have taken := exec_replies (i := .sensorSnapshot .lp bank states) hs rfl rfl (sensorSnapshot_ok (states := states) active known)
    have pass : u = s.snapshotTaken bank states := by
      refine congrArg (fun f => (List.finRange 192).foldl f s) (funext fun u => funext fun i => ?_)
      rfl
    have rest := s.snapshotTaken_rest bank states
    have slots := s.snapshotTaken_slot bank states
    generalize s.snapshotTaken bank states = v at taken pass rest slots
    refine ⟨_, taken, by rw [pass]; rfl, reply_answers (by rw [rest]), by rw [rest]; rfl, fun i => ?_⟩
    obtain ⟨free, held⟩ := slots i
    intro x y
    have bound (four : x.reachesFour bank states = true) : x.boundIn bank ≠ none := fun free => by
      rw [Slot.reachesFour_unbound free] at four; cases four
    have plain (policy : x.cfg.policy ≠ .resync) (four : x.reachesFour bank states = true) : y = x.checked bank states :=
      (held (bound four)).2 fun h => policy h.2
    refine ⟨free, fun bound below => ?_, fun four policy => ?_, fun four policy => ?_, fun four policy => ?_⟩
    · exact ((held bound).2 fun h => by rw [show x.reachesFour bank states = false from below] at h; cases h.1).trans
        (Slot.checked_below below)
    · exact (plain (by rw [policy]; decide) four).trans (Slot.checked_report four policy)
    · exact (plain (by rw [policy]; decide) four).trans (Slot.checked_withhold four policy)
    · have record := (held (bound four)).1
      rw [Slot.checked_resync four policy] at record
      exact record
  · exact exec_onlyAnswers (i := .sensorSnapshot .lp bank states) hs rfl rfl (if_pos idle)
  · exact exec_onlyAnswers (i := .sensorSnapshot .lp bank states) hs rfl rfl ((if_neg (by simp [active])).trans (if_pos unknown))

end

section
/-!
PROOFS about the builder (O48, O49, O50): a build point where nothing is built, the racks and the bins of a build one after another,
and what a build leaves of the demand queue.
-/

namespace Sys2Proof.Machine

open Sys2Proof

/-! ## The uncovered flags -/

/-- The demand queue with every uncovered flag set afresh (R58). -/
def State.retestedQueue (s : State) : DemandQueue :=
  { s.demand with lines := s.demand.lines.map fun y => { y with uncovered := (s.mapSlot y.slot).isNone } }

/-- UNCOVERED raised for each line newly uncovered, front to back (R58). -/
def State.tellNewlyUncovered (s : State) : State :=
  (s.demand.lines.filter fun y => !y.uncovered && (s.mapSlot y.slot).isNone).foldl
    (fun u y => u.raise (.uncovered y.slot y.containers)) s

theorem retestUncovered_eq (s : State) :
    s.retestUncovered = { s with demand := s.retestedQueue, queues := s.tellNewlyUncovered.queues } := by
  have told (t : State) (ys : List DemandLine) : ys.foldl (fun u y => u.raise (.uncovered y.slot y.containers)) t =
      (ys.map fun y => Event.uncovered y.slot y.containers).foldl State.raise t := List.foldl_map.symm
  unfold State.retestUncovered State.tellNewlyUncovered
  dsimp only
  rw [told, told, State.foldl_raise_rest]
  refine congrArg (fun q => { s with demand := s.retestedQueue, queues := q }) ?_
  refine State.foldl_raise_queues_congr ?_ ?_ _ <;> rfl

theorem retestUncovered_route (s : State) (r : RouteId) : s.retestUncovered.route r = s.route r := by
  rw [retestUncovered_eq]; rfl

theorem raise_told_queues (s : State) (e : Event) :
    (s.retestUncovered.raise e).queues = (s.tellNewlyUncovered.raise e).queues := by
  have plant : s.tellNewlyUncovered.plant = s.plant :=
    List.foldlRecOn _ _ (motive := fun u : State => u.plant = s.plant) rfl fun _ h _ _ => h
  exact State.raise_queues_congr (by rw [retestUncovered_eq]) (by rw [retestUncovered_eq]; exact plant.symm) e

/-! ## A build point where nothing is built -/

theorem buildPoint_held {s : State} {r : RouteId} (hold : (s.route r).hold = true) :
    s.buildPoint r = (s.retestUncovered.modRoute r fun x => { x with heldCount := bump x.heldCount }).modRoute r
      fun x => { x with due := none } := by
  unfold State.buildPoint State.build
  rw [retestUncovered_route]
  exact congrArg (State.modRoute · r _) (if_pos hold)

theorem buildPoint_missed {s : State} {r : RouteId} (hold : (s.route r).hold = false)
    (full : ∀ h, (s.buffer r h).state ≠ .free) :
    s.buildPoint r = ((s.retestUncovered.modRoute r fun x => { x with missedCount := bump x.missedCount }).raise
      (.lapMissed r (s.route r).lap (s.buffer r (s.route r).older).state)).modRoute r fun x => { x with due := none } := by
  have none_free : (s.route r).freeHalf = none := Route.freeHalf_none.mpr fun h => (Buffer.live_iff _).mpr (full h)
  unfold State.buildPoint State.build
  rw [retestUncovered_route]
  refine congrArg (State.modRoute · r _) ?_
  dsimp only
  rw [if_neg (by simp [hold]), none_free]
  rfl

end Sys2Proof.Machine

open Sys2Proof Sys2Proof.Machine

/-- Settles O48, by the two ways in which a build point builds nothing, after the flags are set afresh. -/
theorem buildIsHeldOrMissed : Obligations.BuildIsHeldOrMissed := by
  unfold Obligations.BuildIsHeldOrMissed
  intro s r hs due
  refine ⟨fun hold => ⟨_, exec_due hs rfl due, ?_, ?_, ?_⟩, fun hold full => ⟨_, exec_due hs rfl due, ?_, ?_, ?_⟩⟩
  · rw [buildPoint_held hold, retestUncovered_eq]
    rfl
  · rw [buildPoint_held hold]
    exact fun q hq => by simp [hq, retestUncovered_route]
  · rw [buildPoint_held hold]
    simp [retestUncovered_route, bump, bumpBy]
  · rw [buildPoint_missed hold full]
    have told := raise_told_queues s (.lapMissed r (s.route r).lap (s.buffer r (s.route r).older).state)
    have rest := retestUncovered_eq s
    generalize s.retestUncovered = u at told rest ⊢
    subst rest
    show _ = { s with demand := s.retestedQueue, queues := (s.tellNewlyUncovered.raise _).queues, routes := _ }
    rw [← told]
    rfl
  · rw [buildPoint_missed hold full]
    exact fun q hq => by simp [hq, retestUncovered_route]
  · rw [buildPoint_missed hold full]
    simp [retestUncovered_route, bump, bumpBy]
end

section
/-!
PROOFS about the racks of a build (O49, O50): what one slot's consideration reads, the lines placed by a run of slots, and exactly
which slots are given one.
-/

namespace Sys2Proof.Machine

open Sys2Proof

/-! ## What a consideration reads -/

theorem Work.mapSlot {s t : State} (h : Work s t) (i : SlotId) : t.mapSlot i = s.mapSlot i := by
  have cfg := (h.slot i).cfg
  unfold State.mapSlot
  rw [cfg, h.rest]
  rfl

theorem Work.hasRackOut {s t : State} (h : Work s t) (i : SlotId) : t.hasRackOut i = s.hasRackOut i := by rw [h.rest]; rfl

theorem Work.newLine {s t : State} (h : Work s t) (i : SlotId) (stop : Nat) (load : LineLoad) (n : Nat) :
    t.newLine i stop load n = s.newLine i stop load n := by unfold State.newLine; rw [(h.slot i).cfg]

/-- A slot whose record has not moved is eligible for the same rack. -/
theorem Work.eligibleRack {s t : State} (h : Work s t) {i : SlotId} (same : t.slot i = s.slot i) :
    t.eligibleRack i = s.eligibleRack i := by
  have units (l : Line) : t.seq l = s.seq l := by rw [h.rest]; rfl
  have usage : t.usage = s.usage := by rw [h.rest]
  unfold State.eligibleRack State.lead State.beyond State.qualifyingUnits State.qualifies
  rw [same]
  simp only [units, usage]

/-! ## The lines of a run of slots -/

/-- A rack line of a build: its slot is mapped to the route with no rack out, and the line is for its eligible rack; t has the
slot's covered-through at the rack's last seq (R37, R105, R107). -/
def State.RackPlaced (s : State) (r : RouteId) (t : State) (y : ManifestLine) : Prop :=
  ∃ stop k, s.mapSlot y.slot = some (r, stop) ∧ s.hasRackOut y.slot = false ∧ s.eligibleRack y.slot = some k ∧
    y = s.newLine y.slot stop (.rack k.first k.last k.positions) 1 ∧
    t.slot y.slot = { s.slot y.slot with marks := (s.slot y.slot).marks.map fun m => { m with covered := k.last } }

/-- From w to v the slots `is` were considered and `placed` are the lines for their racks. -/
structure State.RacksRun (s : State) (r : RouteId) (is : List SlotId) (w v : BuildWork) (placed : List ManifestLine) : Prop where
  lines : v.lines = w.lines ++ placed
  slots : (placed.map (·.slot)).Sublist is
  racks : ∀ y ∈ placed, s.RackPlaced r v.st y
  others : ∀ i, (∀ y ∈ placed, y.slot ≠ i) → v.st.slot i = w.st.slot i

theorem State.RacksRun.slot_mem {s : State} {r : RouteId} {is : List SlotId} {w v : BuildWork} {placed : List ManifestLine}
    (h : s.RacksRun r is w v placed) {y : ManifestLine} (hy : y ∈ placed) : y.slot ∈ is :=
  h.slots.subset (List.mem_map.mpr ⟨y, hy, rfl⟩)

/-- A consideration that passes its tests places the rack (R105, R107). -/
theorem considerRack_placed {r : RouteId} {w : BuildWork} {i : SlotId} {stop : Nat} {k : Rack}
    (mapped : w.st.mapSlot i = some (r, stop)) (home : w.st.hasRackOut i = false) (eligible : w.st.eligibleRack i = some k)
    (room : w.room.get (w.st.slot i).cfg.size ≠ 0) (few : w.lines.length < maxLines) :
    (considerRack r w i).lines = w.lines ++ [w.st.newLine i stop (.rack k.first k.last k.positions) 1] := by
  have tests : ¬(w.room.get (w.st.slot i).cfg.size = 0 ∨ maxLines ≤ w.lines.length) := by omega
  unfold considerRack
  rw [mapped]
  dsimp only
  rw [if_neg (by simp [home]), eligible]
  dsimp only
  rw [if_neg tests]
  rfl

theorem foldl_considerRack_run {s : State} (r : RouteId) : ∀ (is : List SlotId) (w : BuildWork), Work s w.st → is.Nodup →
    (∀ i ∈ is, w.st.slot i = s.slot i) → ∃ placed, s.RacksRun r is w (is.foldl (considerRack r) w) placed
  | [], w, _, _, _ => ⟨[], by simp, List.Sublist.refl _, (fun _ h => nomatch h), fun _ _ => rfl⟩
  | i :: is, w, work, nodup, fresh => by
    obtain ⟨new, nodup⟩ := List.nodup_cons.mp nodup
    have moved := (considerRack_rest r w i).2
    have own := fresh i List.mem_cons_self
    obtain ⟨placed, rest⟩ := foldl_considerRack_run r is (considerRack r w i) (work.trans (considerRack_work r w i)) nodup
      fun j hj => (moved j fun e => new (e ▸ hj)).trans (fresh j (List.mem_cons_of_mem _ hj))
    obtain e | ⟨stop, k, mapped, home, eligible, -, -, e⟩ := considerRack_cases r w i
    · refine ⟨placed, rest.lines.trans ?_, rest.slots.cons _, rest.racks, fun j hj => (rest.others j hj).trans ?_⟩ <;> rw [e]
    · rw [work.mapSlot] at mapped
      rw [work.hasRackOut] at home
      rw [work.eligibleRack own] at eligible
      have untouched : ((i :: is).foldl (considerRack r) w).st.slot i = (considerRack r w i).st.slot i :=
        rest.others i fun y hy same => new (same ▸ rest.slot_mem hy)
      have covered : (considerRack r w i).st.slot i =
          { s.slot i with marks := (s.slot i).marks.map fun m => { m with covered := k.last } } := by
        rw [e, ← own]
        exact State.slot_modSlot_self ..
      refine ⟨s.newLine i stop (.rack k.first k.last k.positions) 1 :: placed, ?_, rest.slots.cons_cons i,
        List.forall_mem_cons.mpr ⟨⟨stop, k, mapped, home, eligible, rfl, untouched.trans covered⟩, rest.racks⟩, fun j hj => ?_⟩
      · rw [List.foldl_cons, rest.lines, e]
        show (w.lines ++ [_]) ++ placed = _
        rw [work.newLine, List.append_assoc, List.singleton_append]
      · obtain ⟨other, hj⟩ := List.forall_mem_cons.mp hj
        exact (rest.others j hj).trans (moved j (Ne.symm other))

/-! ## The racks of a build -/

theorem State.racksPlaced_run (s : State) (r : RouteId) :
    s.RacksRun r (s.slotsWhere Slot.rackable) ⟨s, (s.route r).cfg.caps, []⟩ (s.racksPlaced r) (s.racksPlaced r).lines := by
  obtain ⟨placed, run⟩ := foldl_considerRack_run (s := s) r (s.slotsWhere Slot.rackable) ⟨s, (s.route r).cfg.caps, []⟩ (.refl s)
    (s.slotsWhere_nodup _) fun _ _ => rfl
  have lines : (s.racksPlaced r).lines = placed := run.lines
  rw [lines]
  exact run

theorem State.racksPlaced_fits (s : State) (r : RouteId) : (s.racksPlaced r).Fits (s.route r).cfg.caps :=
  List.foldlRecOn (s.slotsWhere Slot.rackable) (considerRack r) (BuildWork.Fits.start s (s.route r).cfg.caps)
    fun _ h i _ => considerRack_fits r h i

/-- Placing the racks of a build moves the marks of their slots alone. -/
theorem State.racksPlaced_slot (s : State) (r : RouteId) (i : SlotId) :
    ∃ m, (s.racksPlaced r).st.slot i = { s.slot i with marks := m } := by
  by_cases h : ∀ y ∈ (s.racksPlaced r).lines, y.slot ≠ i
  · exact ⟨(s.slot i).marks, (s.racksPlaced_run r).others i h⟩
  · push Not at h
    obtain ⟨y, hy, rfl⟩ := h
    obtain ⟨stop, k, -, -, -, -, e⟩ := (s.racksPlaced_run r).racks y hy
    exact ⟨_, e⟩

/-- The racks stand in ascending slot number (R105). -/
theorem State.slotsWhere_ascending (s : State) (p : Slot → Bool) : (s.slotsWhere p).Pairwise (· < ·) :=
  (List.pairwise_lt_finRange 192).filter _

theorem State.racksPlaced_ascending (s : State) (r : RouteId) :
    (s.racksPlaced r).lines.Pairwise fun y z => y.slot < z.slot :=
  List.pairwise_map.mp ((s.slotsWhere_ascending Slot.rackable).sublist (s.racksPlaced_run r).slots)

/-- With lines for racks alone, as many of a class are carried as there are lines of it. -/
theorem carriedLoad_ofRacks {lines : List ManifestLine} (one : ∀ y ∈ lines, y.held = 1) (z : SizeClass) :
    (carriedLoad lines).get z = lines.countP (·.size == z) := by
  rw [carriedLoad_get, List.map_congr_left (g := fun _ => 1) fun y hy => one y (List.mem_of_mem_filter hy),
    List.countP_eq_length_filter]
  simp

theorem State.RackPlaced.one {s t : State} {r : RouteId} {y : ManifestLine} (h : s.RackPlaced r t y) : y.held = 1 := by
  obtain ⟨stop, k, -, -, -, line, -⟩ := h
  rw [line]
  rfl

/-- The work w when the turn of slot i comes, and the lines placed after it. -/
structure State.RackTurn (s : State) (r : RouteId) (i : SlotId) (w : BuildWork) (last : List ManifestLine) : Prop where
  work : Work s w.st
  own : w.st.slot i = s.slot i
  below : ∀ y ∈ w.lines, y.slot < i
  above : ∀ y ∈ last, i < y.slot
  load : w.lines.countP (·.size == (s.slot i).cfg.size) + w.room.get (s.slot i).cfg.size =
    (s.route r).cfg.caps.get (s.slot i).cfg.size
  lines : (s.racksPlaced r).lines = (considerRack r w i).lines ++ last

theorem State.racksPlaced_turn {s : State} {r : RouteId} {i : SlotId} (considered : i ∈ s.slotsWhere Slot.rackable) :
    ∃ w last, s.RackTurn r i w last := by
  obtain ⟨before, after, split⟩ := List.append_of_mem considered
  have ascending := s.slotsWhere_ascending Slot.rackable
  have nodup := s.slotsWhere_nodup Slot.rackable
  rw [split] at ascending nodup
  obtain ⟨-, above, cross⟩ := List.pairwise_append.mp ascending
  obtain ⟨nodupB, nodupA, -⟩ := List.nodup_append.mp nodup
  obtain ⟨above, -⟩ := List.pairwise_cons.mp above
  obtain ⟨first, run⟩ := foldl_considerRack_run (s := s) r before ⟨s, (s.route r).cfg.caps, []⟩ (.refl s) nodupB fun _ _ => rfl
  have fits : (before.foldl (considerRack r) ⟨s, (s.route r).cfg.caps, []⟩).Fits (s.route r).cfg.caps :=
    List.foldlRecOn before (considerRack r) (BuildWork.Fits.start s (s.route r).cfg.caps) fun _ h i _ => considerRack_fits r h i
  have work : Work s (before.foldl (considerRack r) ⟨s, (s.route r).cfg.caps, []⟩).st :=
    Work.foldl_build (considerRack_work r) before ⟨s, (s.route r).cfg.caps, []⟩
  have whole : s.racksPlaced r =
      after.foldl (considerRack r) (considerRack r (before.foldl (considerRack r) ⟨s, (s.route r).cfg.caps, []⟩) i) := by
    unfold State.racksPlaced
    rw [split, List.foldl_append, List.foldl_cons]
  generalize before.foldl (considerRack r) ⟨s, (s.route r).cfg.caps, []⟩ = w at run fits work whole
  have lines : w.lines = first := run.lines
  have fresh (j : SlotId) (hj : j ∈ after) : (considerRack r w i).st.slot j = s.slot j :=
    ((considerRack_rest r w i).2 j (above j hj).ne').trans
      (run.others j fun y hy e => (cross _ (run.slot_mem hy) j (List.mem_cons_of_mem _ hj)).ne e)
  obtain ⟨last, rest⟩ := foldl_considerRack_run (s := s) r after (considerRack r w i) (work.trans (considerRack_work r w i))
    (List.nodup_cons.mp nodupA).2 fresh
  have below (y : ManifestLine) (hy : y ∈ w.lines) : y.slot < i := cross _ (run.slot_mem (lines ▸ hy)) i List.mem_cons_self
  exact ⟨w, last, {
    work := work
    own := run.others i fun y hy e => (below y (lines ▸ hy)).ne e
    below := below
    above := fun y hy => above _ (rest.slot_mem hy)
    load := by rw [← fits.room, ← carriedLoad_ofRacks fun y hy => (run.racks y (lines ▸ hy)).one, Nat.add_comm]
    lines := by rw [whole]; exact rest.lines }⟩

/-- A rack is placed for exactly the slots considered that are mapped to the route with no rack out, eligible, with room of their
class and fewer than 32 lines when their turn comes (R105, R106). -/
theorem State.racksPlaced_iff (s : State) (r : RouteId) (i : SlotId) :
    let ahead := (s.racksPlaced r).lines.filter fun y => decide (y.slot < i)
    (∃ y ∈ (s.racksPlaced r).lines, y.slot = i) ↔
      (s.slot i).rackable = true ∧ (∃ k, s.mapSlot i = some (r, k)) ∧ s.hasRackOut i = false ∧ s.eligibleRack i ≠ none ∧
        ahead.countP (·.size == (s.slot i).cfg.size) < (s.route r).cfg.caps.get (s.slot i).cfg.size ∧ ahead.length < 32 := by
  intro ahead
  by_cases considered : i ∈ s.slotsWhere Slot.rackable
  swap
  · rw [State.mem_slotsWhere] at considered
    refine ⟨fun ⟨y, hy, e⟩ => absurd ?_ considered, fun h => absurd h.1 considered⟩
    rw [← e]
    exact (s.mem_slotsWhere _ _).mp ((s.racksPlaced_run r).slot_mem hy)
  obtain ⟨w, last, turn⟩ := State.racksPlaced_turn (r := r) considered
  have load := turn.load
  have keep : w.lines.filter (fun y => decide (y.slot < i)) = w.lines :=
    List.filter_eq_self.mpr fun y hy => decide_eq_true (turn.below y hy)
  have drop : last.filter (fun y => decide (y.slot < i)) = [] :=
    List.filter_eq_nil_iff.mpr fun y hy => by simpa using (turn.above y hy).le
  by_cases tests : (∃ k, s.mapSlot i = some (r, k)) ∧ s.hasRackOut i = false ∧ s.eligibleRack i ≠ none ∧
      w.room.get (s.slot i).cfg.size ≠ 0 ∧ w.lines.length < maxLines
  · obtain ⟨⟨stop, mapped⟩, home, eligible, room, few⟩ := tests
    obtain ⟨k, eligible⟩ := Option.ne_none_iff_exists'.mp eligible
    have all := turn.lines
    rw [considerRack_placed (turn.work.mapSlot i ▸ mapped) (turn.work.hasRackOut i ▸ home)
      (turn.work.eligibleRack turn.own ▸ eligible) (turn.own ▸ room) few] at all
    have ahead_eq : ahead = w.lines := by
      show (s.racksPlaced r).lines.filter _ = _
      rw [all, List.filter_append, List.filter_append, keep, drop]
      simp [State.newLine]
    rw [ahead_eq]
    refine iff_of_true ⟨_, all ▸ List.mem_append_left _ (List.mem_append_right _ List.mem_cons_self), rfl⟩
      ⟨(s.mem_slotsWhere _ _).mp considered, ⟨stop, mapped⟩, home, by simp [eligible], by omega, few⟩
  · obtain e | ⟨stop, k, mapped, home, eligible, room, few, -⟩ := considerRack_cases r w i
    · have all := turn.lines
      rw [e] at all
      have ahead_eq : ahead = w.lines := by
        show (s.racksPlaced r).lines.filter _ = _
        rw [all, List.filter_append, keep, drop, List.append_nil]
      have none_placed : ¬∃ y ∈ w.lines ++ last, y.slot = i := fun ⟨y, hy, same⟩ =>
        (List.mem_append.mp hy).elim (fun hy => (turn.below y hy).ne same) fun hy => (turn.above y hy).ne' same
      rw [ahead_eq, all]
      refine iff_of_false none_placed fun ⟨_, mapped, home, eligible, room, few⟩ => tests ⟨mapped, home, eligible, ?_, few⟩
      omega
    · rw [turn.work.eligibleRack turn.own] at eligible
      exact absurd ⟨⟨stop, turn.work.mapSlot i ▸ mapped⟩, turn.work.hasRackOut i ▸ home, by simp [eligible], turn.own ▸ room,
        few⟩ tests

end Sys2Proof.Machine
end

section
/-!
PROOFS about the bins of a build (O49, O50): what serving leaves of the demand queue, the lines placed by a run of candidates, and
that no container is lost.
-/

namespace Sys2Proof.Machine

open Sys2Proof

/-! ## The queue as lines leave it -/

/-- A queue after lines of it were served: none is created, their order stays, and the pressure notices are re-armed where a line
leaves and the count falls low (R50, R59, R60). -/
structure DemandQueue.Served (d e : DemandQueue) : Prop where
  slots : (e.lines.map (·.slot)).Sublist (d.lines.map (·.slot))
  rest : e = { d with
    lines := e.lines
    highArmed := d.highArmed || decide (e.lines.length < d.lines.length ∧ e.lines.length < d.watermark)
    fullArmed := d.fullArmed || decide (e.lines.length < d.lines.length ∧ e.lines.length < 112) }

theorem DemandQueue.Served.fewer {d e : DemandQueue} (h : d.Served e) : e.lines.length ≤ d.lines.length := by
  simpa using h.slots.length_le

theorem DemandQueue.Served.refl (d : DemandQueue) : d.Served d := ⟨.refl _, by simp⟩

theorem DemandQueue.Served.trans {d e f : DemandQueue} (h : d.Served e) (k : e.Served f) : d.Served f := by
  have watermark : e.watermark = d.watermark := by rw [h.rest]
  have fewer := h.fewer
  have fewer' := k.fewer
  have arm (a : Bool) (w : Nat) : ((a || decide (e.lines.length < d.lines.length ∧ e.lines.length < w)) ||
      decide (f.lines.length < e.lines.length ∧ f.lines.length < w)) =
      (a || decide (f.lines.length < d.lines.length ∧ f.lines.length < w)) := by
    rw [Bool.or_assoc, ← Bool.decide_or]
    congr 2
    exact propext (by omega)
  refine ⟨k.slots.trans h.slots, ?_⟩
  rw [← arm, ← arm, k.rest, h.rest]

/-- Lines changed where they stand leave no line of the queue. -/
theorem DemandQueue.Served.map (d : DemandQueue) {g : DemandLine → DemandLine} (slot : ∀ x, (g x).slot = x.slot) :
    d.Served { d with lines := d.lines.map g } := by
  refine ⟨?_, by simp⟩
  have same : (d.lines.map g).map (·.slot) = d.lines.map (·.slot) := by
    rw [List.map_map]
    exact List.map_congr_left fun x _ => slot x
  exact same ▸ .refl _

theorem takeOpen_served {s : State} {i : SlotId} {x : DemandLine} (line : s.openLine i = some x) (n : Nat) :
    s.demand.Served (s.takeOpen i n).demand := by
  unfold State.takeOpen
  split
  · have fewer : (s.demand.lines.filter (·.slot != i)).length < s.demand.lines.length := by
      refine List.length_filter_lt_length_iff_exists.mpr ⟨x, (State.openLine_some line).1, ?_⟩
      simp [(State.openLine_some line).2]
    refine ⟨List.filter_sublist.map _, ?_⟩
    show _ = ({ s.demand with lines := s.demand.lines.filter (·.slot != i), highArmed := _, fullArmed := _ } : DemandQueue)
    simp only [fewer, true_and, State.removeOpen, State.modDemand, DemandQueue.rearm]
  · exact .map s.demand fun y => DemandLine.ifOf_slot (f := fun y => { y with containers := y.containers - n }) (fun _ => rfl) y

/-! ## The lines of a run of candidates -/

/-- A bin line of a build for the demand line d, with d's class and some of its containers; t has what is left of d (R50, R110). -/
def State.BinPlaced (s t : State) (d : DemandLine) (y : ManifestLine) : Prop :=
  ∃ route stop, s.mapSlot d.slot = some (route, stop) ∧ y = s.newLine d.slot stop (.bin d.cls) y.planned ∧
    1 ≤ y.planned ∧ y.planned ≤ d.containers ∧ t.openLine d.slot = d.less y.planned

/-- From w to v the candidates ds were considered and `placed` are the lines for their containers. -/
structure State.BinsRun (s : State) (ds : List DemandLine) (w v : BuildWork) (placed : List ManifestLine) : Prop where
  lines : v.lines = w.lines ++ placed
  slots : (placed.map (·.slot)).Sublist (ds.map (·.slot))
  bins : ∀ y ∈ placed, ∃ d ∈ ds, s.BinPlaced v.st d y
  others : ∀ i, (∀ y ∈ placed, y.slot ≠ i) → v.st.openLine i = w.st.openLine i
  queue : w.st.demand.Served v.st.demand

theorem State.BinPlaced.slot_eq {s t : State} {d : DemandLine} {y : ManifestLine} (h : s.BinPlaced t d y) : y.slot = d.slot := by
  obtain ⟨_, _, -, line, -⟩ := h
  rw [line]
  rfl

theorem State.BinPlaced.load_eq {s t : State} {d : DemandLine} {y : ManifestLine} (h : s.BinPlaced t d y) : y.load = .bin d.cls := by
  obtain ⟨_, _, -, line, -⟩ := h
  rw [line]
  rfl

theorem foldl_considerBin_run {s : State} : ∀ (ds : List DemandLine) (w : BuildWork), Work s w.st → (ds.map (·.slot)).Nodup →
    (∀ d ∈ ds, w.st.openLine d.slot = some d) → ∃ placed, s.BinsRun ds w (ds.foldl considerBin w) placed
  | [], w, _, _, _ => ⟨[], by simp, List.Sublist.refl _, (fun _ h => nomatch h), fun _ _ => rfl, .refl _⟩
  | d :: ds, w, work, nodup, open_lines => by
    obtain ⟨new, nodup⟩ := List.nodup_cons.mp nodup
    have only := considerBin_onlyLine w d
    have own := open_lines d List.mem_cons_self
    obtain ⟨placed, rest⟩ := foldl_considerBin_run ds (considerBin w d) (work.trans (considerBin_work w d)) nodup
      fun e he => (only e.slot fun same => new (List.mem_map.mpr ⟨e, he, same⟩)).trans (open_lines e (List.mem_cons_of_mem _ he))
    have later (y : ManifestLine) (hy : y ∈ placed) : ∃ e ∈ d :: ds, s.BinPlaced (ds.foldl considerBin (considerBin w d)).st e y :=
      (rest.bins y hy).imp fun e h => ⟨List.mem_cons_of_mem _ h.1, h.2⟩
    obtain e | ⟨route, stop, k, mapped, least, some_fit, -, e⟩ := considerBin_cases w d
    · refine ⟨placed, rest.lines.trans ?_, rest.slots.cons _, later, fun j hj => (rest.others j hj).trans ?_, ?_⟩
      · rw [e]
      · rw [e]
      · have queue := rest.queue
        rw [e] at queue
        rw [List.foldl_cons, e]
        exact queue
    · have taken : (considerBin w d).st = w.st.takeOpen d.slot k := by rw [e]
      have untouched : (ds.foldl considerBin (considerBin w d)).st.openLine d.slot = (considerBin w d).st.openLine d.slot :=
        rest.others d.slot fun y hy same => new (show d.slot ∈ ds.map (·.slot) from same ▸ rest.slots.subset (List.mem_map_of_mem hy))
      have left : (considerBin w d).st.openLine d.slot = d.less k := by
        rw [taken, State.takeOpen_openLine, if_pos rfl, own]
        rfl
      refine ⟨s.newLine d.slot stop (.bin d.cls) k :: placed, ?_, rest.slots.cons_cons _, List.forall_mem_cons.mpr ⟨⟨d,
        List.mem_cons_self, route, stop, work.mapSlot d.slot ▸ mapped, rfl, Nat.one_le_iff_ne_zero.mpr some_fit,
        least ▸ Nat.min_le_left .., untouched.trans left⟩, later⟩, fun j hj => ?_, ?_⟩
      · rw [List.foldl_cons, rest.lines, e]
        show (w.lines ++ [_]) ++ placed = _
        rw [work.newLine, List.append_assoc, List.singleton_append]
      · obtain ⟨other, hj⟩ := List.forall_mem_cons.mp hj
        exact (rest.others j hj).trans (only j (Ne.symm other))
      · have first : w.st.demand.Served (considerBin w d).st.demand := by rw [taken]; exact takeOpen_served own k
        exact first.trans rest.queue

/-! ## The bins of a build -/

theorem State.racksPlaced_openLine (s : State) (r : RouteId) (i : SlotId) : (s.racksPlaced r).st.openLine i = s.openLine i :=
  State.openLine_congr (by rw [State.racksPlaced_demand]) i

/-- Placing racks makes no slot a candidate and none any less one (R108). -/
theorem State.racksPlaced_candidate (s : State) (r : RouteId) (d : DemandLine) :
    (s.racksPlaced r).st.candidate r d = s.candidate r d := by
  obtain ⟨m, slot⟩ := s.racksPlaced_slot r d.slot
  unfold State.candidate
  rw [(s.racksPlaced_work r).mapSlot, slot]

/-- The candidates of a build in the order in which they are served (R108, R109). -/
def State.served (s : State) (r : RouteId) : List DemandLine := (s.racksPlaced r).st.candidates r

theorem State.mem_served (s : State) (r : RouteId) (d : DemandLine) : d ∈ s.served r ↔ d ∈ s.demand.lines ∧ s.candidate r d = true := by
  rw [State.served, (State.candidates_perm _ r).mem_iff, List.mem_filter, State.racksPlaced_candidate, State.racksPlaced_demand]

theorem State.served_nodup {s : State} (law : s.demand.Law) (r : RouteId) : ((s.served r).map (·.slot)).Nodup :=
  State.candidates_nodup (by rw [State.racksPlaced_demand]; exact law) r

theorem State.served_openLine {s : State} (law : s.demand.Law) {r : RouteId} {d : DemandLine} (hd : d ∈ s.served r) :
    (s.racksPlaced r).st.openLine d.slot = some d := by
  rw [State.racksPlaced_openLine]
  exact State.openLine_of_mem law ((s.mem_served r d).mp hd).1

theorem State.binsPlaced_eq (s : State) (r : RouteId) : s.binsPlaced r = (s.served r).foldl considerBin (s.racksPlaced r) := rfl

theorem State.selectLoad_lines_eq (s : State) (r : RouteId) : (s.selectLoad r).lines = (s.binsPlaced r).lines := by
  rw [State.selectLoad_eq]

theorem State.binsPlaced_run {s : State} (law : s.demand.Law) (r : RouteId) :
    ∃ placed, s.BinsRun (s.served r) (s.racksPlaced r) (s.binsPlaced r) placed :=
  foldl_considerBin_run (s.served r) (s.racksPlaced r) (s.racksPlaced_work r) (State.served_nodup law r)
    fun _ hd => State.served_openLine law hd

theorem DemandLine.passedOver_slot (slots : List SlotId) (x : DemandLine) : (x.passedOver slots).slot = x.slot := by
  unfold DemandLine.passedOver
  split <;> rfl

theorem State.selectLoad_openLine (s : State) (r : RouteId) (i : SlotId) :
    (s.selectLoad r).st.openLine i = ((s.binsPlaced r).st.openLine i).map (DemandLine.passedOver ((s.served r).map (·.slot))) := by
  rw [State.selectLoad_eq]
  exact State.openLine_map rfl (DemandLine.passedOver_slot _) i

theorem State.selectLoad_served {s : State} (law : s.demand.Law) (r : RouteId) : s.demand.Served (s.selectLoad r).st.demand := by
  obtain ⟨placed, run⟩ := State.binsPlaced_run law r
  have queue := run.queue
  rw [State.racksPlaced_demand] at queue
  rw [State.selectLoad_eq]
  exact queue.trans (.map _ (DemandLine.passedOver_slot _))

theorem filter_eq_singleton {α : Type} {p : α → Bool} {y : α} : ∀ {xs : List α}, y ∈ xs → p y = true →
    xs.Pairwise (fun x z => ¬(p x = true ∧ p z = true)) → xs.filter p = [y]
  | x :: xs, mem, own, apart => by
    obtain ⟨first, apart⟩ := List.pairwise_cons.mp apart
    rcases List.mem_cons.mp mem with rfl | mem
    · rw [List.filter_cons_of_pos own, List.filter_eq_nil_iff.mpr fun z hz hp => first z hz ⟨own, hp⟩]
    · rw [List.filter_cons_of_neg fun hp => first y mem ⟨hp, own⟩]
      exact filter_eq_singleton mem own apart

/-- What a build makes of one line of the queue: it is served some of its containers, or none. -/
theorem State.selectLoad_line {s : State} (law : s.demand.Law) (r : RouteId) {d : DemandLine} (hd : d ∈ s.demand.lines) :
    ((s.selectLoad r).lines.filter (·.binOf d.slot) = [] ∧ (s.binsPlaced r).st.openLine d.slot = some d) ∨
    (s.candidate r d = true ∧ ∃ y, (s.selectLoad r).lines.filter (·.binOf d.slot) = [y] ∧ s.BinPlaced (s.binsPlaced r).st d y) := by
  obtain ⟨placed, run⟩ := State.binsPlaced_run law r
  have racks : (s.racksPlaced r).lines.filter (·.binOf d.slot) = [] := List.filter_eq_nil_iff.mpr fun y hy => by
    obtain ⟨stop, k, -, -, -, line, -⟩ := (s.racksPlaced_run r).racks y hy
    rw [line]
    simp [State.newLine, ManifestLine.binOf]
  have bins : (s.selectLoad r).lines.filter (·.binOf d.slot) = placed.filter (·.slot == d.slot) := by
    rw [State.selectLoad_lines_eq, run.lines, List.filter_append, racks, List.nil_append]
    refine List.filter_congr fun y hy => ?_
    obtain ⟨e, -, bin⟩ := run.bins y hy
    simp [ManifestLine.binOf, bin.load_eq]
  rw [bins]
  by_cases given : ∀ y ∈ placed, y.slot ≠ d.slot
  · refine .inl ⟨List.filter_eq_nil_iff.mpr fun y hy => by simpa using given y hy, ?_⟩
    rw [run.others _ given, State.racksPlaced_openLine]
    exact State.openLine_of_mem law hd
  · push Not at given
    obtain ⟨y, hy, slot⟩ := given
    obtain ⟨e, he, bin⟩ := run.bins y hy
    obtain ⟨mem, candidate⟩ := (s.mem_served r e).mp he
    obtain rfl : e = d := List.inj_on_of_nodup_map law.oneEach mem hd (bin.slot_eq.symm.trans slot)
    refine .inr ⟨candidate, y, filter_eq_singleton hy (by simpa using slot) ?_, bin⟩
    refine (List.pairwise_map.mp ((State.served_nodup law r).sublist run.slots)).imp fun apart both => apart ?_
    rw [eq_of_beq both.1, eq_of_beq both.2]

/-- A line is a candidate where its slot is mapped to the route, KANBAN, ACTIVE and not withheld (R108). -/
theorem State.candidate_iff (s : State) (r : RouteId) (d : DemandLine) : s.candidate r d = true ↔
    (∃ k, s.mapSlot d.slot = some (r, k)) ∧ (s.slot d.slot).cfg.kind = .kanban ∧ (s.slot d.slot).cfg.status = .active ∧
      (s.slot d.slot).withheld = false := by
  have mapped : (s.mapSlot d.slot).any (·.1 == r) = true ↔ ∃ k, s.mapSlot d.slot = some (r, k) := by
    cases s.mapSlot d.slot with
    | none => simp
    | some x => obtain ⟨q, k⟩ := x; simp
  unfold State.candidate
  simp [and_assoc, mapped]

theorem DemandLine.passedOver_in {slots : List SlotId} {x : DemandLine} (h : x.slot ∈ slots) :
    x.passedOver slots = { x with passes := min (x.passes + 1) 255 } := if_pos (by simpa using h)

theorem DemandLine.passedOver_out {slots : List SlotId} {x : DemandLine} (h : x.slot ∉ slots) : x.passedOver slots = x :=
  if_neg (by simpa using h)

/-- A line that is no candidate stays as it is, with no bins (R108). -/
theorem State.selectLoad_passedBy {s : State} (law : s.demand.Law) {r : RouteId} {d : DemandLine} (hd : d ∈ s.demand.lines)
    (ineligible : s.candidate r d = false) :
    (s.selectLoad r).lines.filter (·.binOf d.slot) = [] ∧ (s.selectLoad r).st.openLine d.slot = some d := by
  obtain ⟨none_given, line⟩ | ⟨candidate, -⟩ := State.selectLoad_line law r hd
  · refine ⟨none_given, ?_⟩
    rw [State.selectLoad_openLine, line, Option.map_some, DemandLine.passedOver_out]
    rintro mem
    obtain ⟨e, he, slot⟩ := List.mem_map.mp mem
    obtain ⟨mem, candidate⟩ := (s.mem_served r e).mp he
    rw [List.inj_on_of_nodup_map law.oneEach mem hd slot, ineligible] at candidate
    cases candidate
  · rw [ineligible] at candidate; cases candidate

/-- A candidate is served some of its containers, or none, and is passed over with those it is left (R50, R51, R110). -/
theorem State.selectLoad_candidate {s : State} (law : s.demand.Law) {r : RouteId} {d : DemandLine} (hd : d ∈ s.demand.lines)
    (candidate : s.candidate r d = true) :
    let passed (x : DemandLine) : DemandLine := { x with passes := min (x.passes + 1) 255 }
    ((s.selectLoad r).lines.filter (·.binOf d.slot) = [] ∧ (s.selectLoad r).st.openLine d.slot = some (passed d)) ∨
    ∃ y, (s.selectLoad r).lines.filter (·.binOf d.slot) = [y] ∧ y.load = .bin d.cls ∧ y.planned ≤ d.containers ∧
      (s.selectLoad r).st.openLine d.slot = (d.less y.planned).map passed := by
  intro passed
  have own : d.slot ∈ (s.served r).map (·.slot) := List.mem_map_of_mem (f := (·.slot)) ((s.mem_served r d).mpr ⟨hd, candidate⟩)
  rw [State.selectLoad_openLine]
  obtain ⟨none_given, line⟩ | ⟨-, y, given, bin⟩ := State.selectLoad_line law r hd
  · exact .inl ⟨none_given, by rw [line, Option.map_some, DemandLine.passedOver_in own]⟩
  · obtain ⟨_, _, -, -, -, few, left⟩ := id bin
    refine .inr ⟨y, given, bin.load_eq, few, ?_⟩
    rw [left]
    unfold DemandLine.less
    split
    · rfl
    · exact congrArg some (DemandLine.passedOver_in own)

/-! ## The state after a build -/

/-- From s a build of route r that selected w led to t, with a manifest in buffer h (R104 to R113). -/
structure State.BuiltInto (s : State) (r : RouteId) (h : Half) (w : BuildWork) (t : State) : Prop where
  rest : t = { s with slots := t.slots, demand := t.demand, routes := t.routes, queues := t.queues }
  slot : ∀ i, t.slot i = w.st.slot i
  demand : t.demand = w.st.demand
  queues : t.queues = (s.tellNewlyUncovered.raise (.pickReady r (s.route r).lap w.lines.length)).queues
  others : OnlyRoute s t r
  route : t.route r = { (s.route r).filled h (s.offered r w.lines) with due := none }

theorem Work.fill {s v : State} (work : Work s v) (r : RouteId) (f g : Route → Route) (e : Event) :
    let t := ((v.modRoute r f).raise e).modRoute r g
    t = { s with slots := t.slots, demand := t.demand, routes := t.routes, queues := t.queues } := by
  have fields : ((v.modRoute r f).raise e).modRoute r g = { v with
    routes := (((v.modRoute r f).raise e).modRoute r g).routes, queues := ((v.modRoute r f).raise e).queues } := rfl
  rw [fields, work.rest]

theorem buildPoint_built {s : State} {r : RouteId} {h : Half} (hold : (s.route r).hold = false) (free : (s.buffer r h).state = .free)
    (lower : h = .upper → (s.buffer r .lower).state ≠ .free) :
    s.BuiltInto r h (s.retestUncovered.selectLoad r) (s.buildPoint r) := by
  have half : (s.route r).freeHalf = some h :=
    Route.freeHalf_some.mpr ⟨by rw [Buffer.live, show ((s.route r).buffers.get h).state = .free from free]; rfl, fun e => (Buffer.live_iff _).mpr (lower e)⟩
  have built : s.buildPoint r = (s.retestUncovered.buildInto r h).modRoute r fun x => { x with due := none } := by
    unfold State.buildPoint State.build
    rw [retestUncovered_route]
    refine congrArg (State.modRoute · r _) ?_
    dsimp only
    rw [if_neg (by simp [hold]), half]
  have told := raise_told_queues s (.pickReady r (s.route r).lap (s.retestUncovered.selectLoad r).lines.length)
  have rest := s.retestUncovered.selectLoad_rest r
  have start := retestUncovered_eq s
  unfold State.buildInto at built
  rw [retestUncovered_route, show s.retestUncovered.offered r = s.offered r by rw [start]; rfl] at built
  have route (q : RouteId) : (s.retestUncovered.selectLoad r).st.route q = s.route q := by
    rw [rest]; exact retestUncovered_route s q
  have plant : (s.retestUncovered.selectLoad r).st.plant = s.retestUncovered.plant := by rw [rest]
  have queues : (s.retestUncovered.selectLoad r).st.queues = s.retestUncovered.queues := by rw [rest]
  have work := (retestUncovered_work s).trans (selectLoad_work s.retestUncovered r)
  rw [built]
  generalize s.retestUncovered.selectLoad r = w at told rest route plant queues work ⊢
  exact {
    rest := work.fill r _ _ _
    slot := fun _ => rfl
    demand := rfl
    queues := (State.raise_queues_congr (t := s.retestUncovered) queues plant _).trans told
    others := fun q hq => by simp [hq, route]
    route := by simp [route] }

/-! ## The lines of the queue whose flags are set afresh -/

/-- A line of the queue with its uncovered flag set afresh (R58). -/
def State.retested (s : State) (d : DemandLine) : DemandLine := { d with uncovered := (s.mapSlot d.slot).isNone }

theorem retestUncovered_lines (s : State) : s.retestUncovered.demand.lines = s.demand.lines.map s.retested := by
  rw [retestUncovered_eq]; rfl

theorem retestUncovered_served (s : State) : s.demand.Served s.retestUncovered.demand := by
  rw [retestUncovered_eq]
  exact .map s.demand (g := s.retested) fun _ => rfl

theorem retestUncovered_law {s : State} (law : s.demand.Law) : s.retestUncovered.demand.Law :=
  law.map (retestUncovered_lines s) (fun _ => rfl) fun d hd => ⟨(law.containers d hd).1, (law.containers d hd).2, law.passes d hd⟩

theorem retested_mem {s : State} {d : DemandLine} (hd : d ∈ s.demand.lines) : s.retested d ∈ s.retestUncovered.demand.lines := by
  rw [retestUncovered_lines]
  exact List.mem_map_of_mem hd

theorem retested_candidate (s : State) (r : RouteId) (d : DemandLine) :
    s.retestUncovered.candidate r (s.retested d) = s.candidate r d := by
  rw [retestUncovered_eq]; rfl

theorem State.BuiltInto.openLine {s t : State} {r : RouteId} {h : Half} {w : BuildWork} (built : s.BuiltInto r h w t)
    (i : SlotId) : t.openLine i = w.st.openLine i := State.openLine_congr (by rw [built.demand]) i

/-- The new manifest's lines, in manifest order (R100). -/
theorem State.BuiltInto.lines {s t : State} {r : RouteId} {h : Half} {w : BuildWork} (built : s.BuiltInto r h w t) :
    (t.buffer r h).lines = manifestOrder w.lines := by
  show ((t.route r).buffers.get h).lines = _
  rw [built.route]
  exact congrArg Buffer.lines (Route.filled_buffer ..)

theorem DemandLine.less_eq {d x : DemandLine} {n : Nat} (h : d.less n = some x) : ∃ k, x = { d with containers := k } := by
  unfold DemandLine.less at h
  split at h
  · cases h
  · exact ⟨_, (Option.some.inj h).symm⟩

/-- What a slot's line held and what its bins and its line hold after a build: the same (R50, R110). -/
theorem less_containers {d : DemandLine} {n : Nat} (few : n ≤ d.containers) (f : DemandLine → DemandLine)
    (same : ∀ x, (f x).containers = x.containers) : n + ((((d.less n).map f).map (·.containers)).getD 0) = d.containers := by
  unfold DemandLine.less
  split
  · show n + 0 = _; omega
  · show n + (f _).containers = _
    rw [same]
    show n + (d.containers - n) = _
    omega

end Sys2Proof.Machine

open Sys2Proof Sys2Proof.Machine

/-- Settles O50, line by line of the queue: one that is passed by, and a candidate with or without a bin. -/
theorem buildKeepsEveryContainer : Obligations.BuildKeepsEveryContainer := by
  unfold Obligations.BuildKeepsEveryContainer
  intro s r h law hs due hold free lower
  have built := buildPoint_built hold free lower
  have queue := (retestUncovered_served s).trans (State.selectLoad_served (retestUncovered_law law) r)
  refine ⟨_, exec_due hs rfl due, ?_, ?_, fun d hd => ?_⟩
  · rw [built.demand]; exact queue.slots
  · rw [built.demand]; exact queue.rest
  intro x candidate bins
  have eligible : s.retestUncovered.candidate r (s.retested d) = true ↔ candidate := by
    rw [retested_candidate]
    exact s.candidate_iff r d
  have perm : bins.Perm ((s.retestUncovered.selectLoad r).lines.filter (·.binOf d.slot)) := by
    show ((s.buildPoint r).buffer r h).lines.filter _ |>.Perm _
    rw [built.lines]
    exact (manifestOrder_perm _).filter _
  rw [State.openContainers, built.openLine]
  by_cases served : candidate
  · have covered : (s.mapSlot d.slot).isNone = false := by
      obtain ⟨⟨k, mapped⟩, -⟩ := served
      rw [mapped]; rfl
    obtain ⟨given, line⟩ | ⟨y, given, load, few, line⟩ :=
      State.selectLoad_candidate (retestUncovered_law law) (retested_mem hd) (eligible.mpr served)
    · have none_given : bins = [] := List.perm_nil.mp (given ▸ perm)
      rw [show (s.retestUncovered.selectLoad r).st.openLine d.slot = _ from line, none_given]
      refine ⟨Nat.zero_add _, fun y hy => (nomatch hy), Nat.zero_le 1, fun _ e he => ?_, fun other => absurd served other⟩
      obtain rfl := Option.some.inj he
      rw [← covered]
      rfl
    · have one_given : bins = [y] := List.perm_singleton.mp (given ▸ perm)
      rw [show (s.retestUncovered.selectLoad r).st.openLine d.slot = _ from line, one_given]
      refine ⟨less_containers few _ fun _ => rfl, List.forall_mem_singleton.mpr load, Nat.le_refl 1, fun _ e he => ?_,
        fun other => absurd served other⟩
      obtain ⟨x, left, rfl⟩ := Option.map_eq_some_iff.mp he
      obtain ⟨k, rfl⟩ := DemandLine.less_eq left
      rw [← covered]
      rfl
  · obtain ⟨given, line⟩ := State.selectLoad_passedBy (retestUncovered_law law) (retested_mem hd)
      (Bool.eq_false_iff.mpr fun h => served (eligible.mp h))
    have none_given : bins = [] := List.perm_nil.mp (given ▸ perm)
    rw [show (s.retestUncovered.selectLoad r).st.openLine d.slot = _ from line, none_given]
    exact ⟨Nat.zero_add _, fun y hy => (nomatch hy), Nat.zero_le 1, fun h => absurd h served, fun _ => rfl⟩
end

section
/-!
PROOFS of what a build offers (O49): the rack of a slot, the order of the candidates, and the lines of the manifest.
-/

namespace Sys2Proof.Machine

open Sys2Proof

/-! ## The rack of a slot -/

/-- The rack for the first units of a list names the first and the last of them (R36). -/
theorem rackOfUnits_take {units : List AnnouncedUnit} {k : Nat} (some_units : 1 ≤ units.length) (some_size : 1 ≤ k) :
    let n := min k units.length
    ∃ first last, units[0]? = some first ∧ units[n - 1]? = some last ∧
      rackOfUnits (units.take k) = some ⟨first.seq, last.seq, n⟩ := by
  intro n
  obtain ⟨u, us, rfl⟩ := List.exists_cons_of_length_pos some_units
  obtain ⟨k, rfl⟩ := Nat.exists_eq_add_of_le' some_size
  have length : (u :: us.take k).length = n := by simp [n]
  have at_last : (u :: us)[n - 1]? = some ((u :: us.take k).getLast (List.cons_ne_nil _ _)) := by
    rw [List.getLast_eq_getElem, ← List.getElem?_eq_getElem]
    rw [length]
    show _ = ((u :: us).take (k + 1))[n - 1]?
    rw [List.getElem?_take_of_lt (by omega)]
  exact ⟨u, _, rfl, at_last, by rw [List.take_succ_cons, rackOfUnits, length]⟩

theorem State.eligibleRack_unanchored {s : State} {i : SlotId} (h : (s.slot i).marks = none) : s.eligibleRack i = none := by
  unfold State.eligibleRack
  rw [h]

theorem State.eligibleRack_anchored {s : State} {i : SlotId} {m : Marks} (h : (s.slot i).marks = some m) :
    s.eligibleRack i = if (s.slot i).cfg.rackSize ≤ (s.beyond i m).length ∨
      (s.lead i m < (s.slot i).cfg.minLead ∧ 1 ≤ (s.beyond i m).length)
      then rackOfUnits ((s.beyond i m).take (s.slot i).cfg.rackSize) else none := by
  unfold State.eligibleRack
  rw [h]

/-! ## Stable sorting -/

/-- A stable sort keeps the order R of elements that it could as well place the other way round. -/
theorem orderedInsert_stable {α : Type} {r R : α → α → Prop} [DecidableRel r] (total : ∀ a b, r a b ∨ r b a)
    (trans : ∀ a b c, r a b → r b c → r a c) {a : α} : ∀ {xs : List α}, (∀ x ∈ xs, R a x) →
    xs.Pairwise (fun x y => r x y ∧ (r y x → R x y)) → (xs.orderedInsert r a).Pairwise fun x y => r x y ∧ (r y x → R x y)
  | [], _, _ => by simp
  | x :: xs, first, sorted => by
    obtain ⟨head, tail⟩ := List.pairwise_cons.mp sorted
    rw [List.orderedInsert_cons]
    split
    next h =>
      refine List.pairwise_cons.mpr ⟨fun y hy => ⟨?_, fun _ => first y hy⟩, sorted⟩
      rcases List.mem_cons.mp hy with rfl | hy
      · exact h
      · exact trans _ _ _ h (head y hy).1
    next h =>
      have below : r x a := (total a x).resolve_left h
      refine List.pairwise_cons.mpr ⟨fun y hy => ?_, orderedInsert_stable total trans (fun y hy => first y (.tail _ hy)) tail⟩
      rcases List.mem_cons.mp ((List.perm_orderedInsert r a xs).mem_iff.mp hy) with rfl | hy
      · exact ⟨below, fun other => absurd other h⟩
      · exact head y hy

theorem insertionSort_stable {α : Type} {r R : α → α → Prop} [DecidableRel r] (total : ∀ a b, r a b ∨ r b a)
    (trans : ∀ a b c, r a b → r b c → r a c) : ∀ {xs : List α}, xs.Pairwise R →
    (xs.insertionSort r).Pairwise fun x y => r x y ∧ (r y x → R x y)
  | [], _ => .nil
  | x :: xs, ordered => by
    obtain ⟨head, tail⟩ := List.pairwise_cons.mp ordered
    exact orderedInsert_stable total trans (fun y hy => head y ((List.mem_insertionSort r).mp hy))
      (insertionSort_stable total trans tail)

/-! ## The order of the candidates -/

/-- Where a line of a slot stands in the queue (R42). -/
def State.place (s : State) (d : DemandLine) : Nat := s.demand.lines.findIdx (·.slot == d.slot)

/-- The age of a demand line (R43). -/
def State.age (s : State) (d : DemandLine) : Nat := (s.plant - d.created).toNat

/-- A candidate is served before another: by rank, age and place in the queue (R109). -/
def State.ServesBefore (s : State) (d e : DemandLine) : Prop :=
  let rank (x : DemandLine) := x.effectiveRank s.demand.ageStep
  rank d < rank e ∨ rank d = rank e ∧ (s.age e < s.age d ∨ s.age d = s.age e ∧ s.place d < s.place e)

theorem State.ServesBefore.asymm {s : State} {d e : DemandLine} (h : s.ServesBefore d e) : ¬s.ServesBefore e d := by
  unfold State.ServesBefore at *
  dsimp only at *
  omega

theorem State.ServesBefore.irrefl {s : State} {d : DemandLine} : ¬s.ServesBefore d d := fun h => h.asymm h

theorem State.place_ascending {s : State} (law : s.demand.Law) : s.demand.lines.Pairwise fun x y => s.place x < s.place y := by
  have at_index (i : Nat) (hi : i < s.demand.lines.length) : s.place s.demand.lines[i] = i := by
    refine (List.findIdx_eq hi).mpr ⟨by simp, fun j hj => ?_⟩
    have apart := List.pairwise_iff_getElem.mp (List.pairwise_map.mp law.oneEach) j i (by omega) hi hj
    simpa using apart
  refine List.pairwise_iff_getElem.mpr fun i j hi hj less => ?_
  rw [at_index i hi, at_index j hj]
  exact less

theorem servedBefore_iff {ageStep : Nat} {now : Time} {x y : DemandLine} : servedBefore ageStep now x y = true ↔
    x.effectiveRank ageStep < y.effectiveRank ageStep ∨
      x.effectiveRank ageStep = y.effectiveRank ageStep ∧ (now - y.created).toNat ≤ (now - x.created).toNat := by
  unfold servedBefore
  simp

/-- The candidates are served by rank, age and place in the queue (R109). -/
theorem State.served_ordered {s : State} (law : s.demand.Law) (r : RouteId) :
    (s.retestUncovered.served r).Pairwise s.ServesBefore := by
  have work := (retestUncovered_work s).trans (s.retestUncovered.racksPlaced_work r)
  have ageStep : (s.retestUncovered.racksPlaced r).st.demand.ageStep = s.demand.ageStep := work.demand.ageStep
  have plant : (s.retestUncovered.racksPlaced r).st.plant = s.plant := by rw [work.rest]
  have placed : (s.retestUncovered.racksPlaced r).st.demand.lines.Pairwise fun x y => s.place x < s.place y := by
    rw [State.racksPlaced_demand, retestUncovered_lines]
    exact List.pairwise_map.mpr (State.place_ascending law)
  unfold State.served State.candidates
  rw [ageStep, plant]
  have stable := insertionSort_stable (r := fun x y => servedBefore s.demand.ageStep s.plant x y = true)
    (fun x y => by rw [servedBefore_iff, servedBefore_iff]; omega)
    (fun x y z hxy hyz => by rw [servedBefore_iff] at *; omega)
    (placed.filter ((s.retestUncovered.racksPlaced r).st.candidate r))
  refine stable.imp fun {x y} h => ?_
  obtain ⟨before, tie⟩ := h
  rw [servedBefore_iff] at before tie
  unfold State.ServesBefore State.age
  dsimp only
  omega

/-! ## The lines of a build -/

/-- A line is for a rack. -/
def ManifestLine.isRack (y : ManifestLine) : Bool := match y.load with | .rack .. => true | .bin _ => false

theorem State.RackPlaced.isRack {s t : State} {r : RouteId} {y : ManifestLine} (h : s.RackPlaced r t y) : y.isRack = true := by
  obtain ⟨_, _, -, -, -, line, -⟩ := h
  rw [line]
  rfl

/-- A bin line for the demand line d, with d's class (R110). -/
def State.BinLine (s : State) (d : DemandLine) (y : ManifestLine) : Prop :=
  ∃ route stop, s.mapSlot d.slot = some (route, stop) ∧ y = s.newLine d.slot stop (.bin d.cls) y.planned

theorem State.BinLine.isRack {s : State} {d : DemandLine} {y : ManifestLine} (h : s.BinLine d y) : y.isRack = false := by
  obtain ⟨_, _, -, line⟩ := h
  rw [line]
  rfl

theorem State.BinLine.slot_eq {s : State} {d : DemandLine} {y : ManifestLine} (h : s.BinLine d y) : y.slot = d.slot := by
  obtain ⟨_, _, -, line⟩ := h
  rw [line]
  rfl

theorem foldl_considerBin_lines {s : State} : ∀ (ds : List DemandLine) (w : BuildWork), Work s w.st →
    ∃ placed, (ds.foldl considerBin w).lines = w.lines ++ placed ∧ ∀ y ∈ placed, ∃ d ∈ ds, s.BinLine d y
  | [], w, _ => ⟨[], (List.append_nil _).symm, fun _ h => nomatch h⟩
  | d :: ds, w, work => by
    obtain ⟨placed, lines, bins⟩ := foldl_considerBin_lines ds (considerBin w d) (work.trans (considerBin_work w d))
    have later (y : ManifestLine) (hy : y ∈ placed) : ∃ e ∈ d :: ds, s.BinLine e y :=
      (bins y hy).imp fun e h => ⟨List.mem_cons_of_mem _ h.1, h.2⟩
    obtain e | ⟨route, stop, k, mapped, -, -, -, e⟩ := considerBin_cases w d
    · exact ⟨placed, lines.trans (by rw [e]), later⟩
    · refine ⟨s.newLine d.slot stop (.bin d.cls) k :: placed, ?_,
        List.forall_mem_cons.mpr ⟨⟨d, List.mem_cons_self, route, stop, work.mapSlot d.slot ▸ mapped, rfl⟩, later⟩⟩
      rw [List.foldl_cons, lines, e]
      show (w.lines ++ [_]) ++ placed = _
      rw [work.newLine, List.append_assoc, List.singleton_append]

/-- The lines of a build: its racks, then its bins (R105 to R110). -/
theorem State.selectLoad_split (s : State) (r : RouteId) : ∃ bins, (s.selectLoad r).lines = (s.racksPlaced r).lines ++ bins ∧
    ∀ y ∈ bins, ∃ d ∈ s.served r, s.BinLine d y := by
  rw [State.selectLoad_lines_eq, State.binsPlaced_eq]
  exact foldl_considerBin_lines (s.served r) (s.racksPlaced r) (s.racksPlaced_work r)

theorem State.selectLoad_racks (s : State) (r : RouteId) :
    (s.selectLoad r).lines.filter ManifestLine.isRack = (s.racksPlaced r).lines := by
  obtain ⟨bins, lines, each⟩ := s.selectLoad_split r
  have none_left : bins.filter ManifestLine.isRack = [] := List.filter_eq_nil_iff.mpr fun y hy => by
    obtain ⟨d, -, line⟩ := each y hy
    simp [line.isRack]
  rw [lines, List.filter_append, none_left, List.append_nil]
  exact List.filter_eq_self.mpr fun y hy => ((s.racksPlaced_run r).racks y hy).isRack

theorem State.selectLoad_bins (s : State) (r : RouteId) {bins : List ManifestLine}
    (lines : (s.selectLoad r).lines = (s.racksPlaced r).lines ++ bins) :
    (s.selectLoad r).lines.filter (fun y => !y.isRack) = bins := by
  obtain ⟨placed, same, each⟩ := s.selectLoad_split r
  obtain rfl : bins = placed := List.append_cancel_left (lines.symm.trans same)
  have none_left : (s.racksPlaced r).lines.filter (fun y => !y.isRack) = [] := List.filter_eq_nil_iff.mpr fun y hy => by
    simp [((s.racksPlaced_run r).racks y hy).isRack]
  rw [lines, List.filter_append, none_left, List.nil_append]
  refine List.filter_eq_self.mpr fun y hy => ?_
  obtain ⟨d, -, line⟩ := each y hy
  simp [line.isRack]

/-- After its racks a build moves no slot (R107, R110). -/
theorem State.selectLoad_slot (s : State) (r : RouteId) (i : SlotId) :
    (s.selectLoad r).st.slot i = (s.racksPlaced r).st.slot i := by
  have passes (t : State) (is : List SlotId) : (t.countPasses is).slot i = t.slot i := rfl
  rw [State.selectLoad_eq, passes, State.binsPlaced_eq]
  exact List.foldlRecOn (s.served r) considerBin (motive := fun w => w.st.slot i = (s.racksPlaced r).st.slot i) rfl fun w h d _ => by
    rw [considerBin_rest]
    exact h

/-! ## Each line at its slot's mapping -/

/-- A line at its slot's mapping on the route, with the slot's live part number and size; the slot is ACTIVE (R99, R105, R108). -/
structure State.LineFor (s : State) (r : RouteId) (y : ManifestLine) : Prop where
  mapped : s.mapSlot y.slot = some (r, y.stop)
  part : y.part = (s.slot y.slot).cfg.part
  size : y.size = (s.slot y.slot).cfg.size
  active : (s.slot y.slot).cfg.status = .active

theorem Slot.rackable_iff (x : Slot) : x.rackable = true ↔ x.cfg.kind = .sequenced ∧ x.cfg.status = .active := by
  simp [Slot.rackable]

theorem State.racksPlaced_lineFor {s : State} {r : RouteId} {y : ManifestLine} (hy : y ∈ (s.racksPlaced r).lines) :
    s.LineFor r y := by
  have considered := (s.mem_slotsWhere _ _).mp ((s.racksPlaced_run r).slot_mem hy)
  obtain ⟨stop, k, mapped, -, -, line, -⟩ := (s.racksPlaced_run r).racks y hy
  have active := ((Slot.rackable_iff _).mp considered).2
  rw [line] at mapped active ⊢
  exact ⟨mapped, rfl, rfl, active⟩

theorem State.BinLine.lineFor {s : State} {r : RouteId} {d : DemandLine} {y : ManifestLine} (h : s.BinLine d y)
    (candidate : s.candidate r d = true) : s.LineFor r y := by
  obtain ⟨⟨k, here⟩, -, active, -⟩ := (s.candidate_iff r d).mp candidate
  obtain ⟨route, stop, mapped, line⟩ := h
  obtain ⟨rfl, -⟩ := Prod.mk.inj (Option.some.inj (mapped.symm.trans here))
  rw [line]
  exact ⟨mapped, rfl, rfl, active⟩

theorem State.selectLoad_lineFor {s : State} {r : RouteId} {y : ManifestLine} (hy : y ∈ (s.selectLoad r).lines) :
    s.LineFor r y := by
  obtain ⟨bins, lines, each⟩ := s.selectLoad_split r
  rcases List.mem_append.mp (lines ▸ hy) with hy | hy
  · exact State.racksPlaced_lineFor hy
  · obtain ⟨d, hd, line⟩ := each y hy
    exact line.lineFor ((s.mem_served r d).mp hd).2

/-! ## The turn of a candidate -/

theorem State.mem_servedRetested {s : State} {r : RouteId} {e : DemandLine} (he : e ∈ s.retestUncovered.served r) :
    ∃ d ∈ s.demand.lines, e = s.retested d ∧ s.candidate r d = true := by
  obtain ⟨mem, candidate⟩ := (State.mem_served _ r e).mp he
  rw [retestUncovered_lines] at mem
  obtain ⟨d, hd, rfl⟩ := List.mem_map.mp mem
  exact ⟨d, hd, rfl, (retested_candidate s r d).symm.trans candidate⟩

/-- The work w when the turn of candidate d comes, with the bin lines placed before it and those placed after it. -/
structure State.BinTurn (s : State) (r : RouteId) (d : DemandLine) (w : BuildWork) (first last : List ManifestLine) : Prop where
  work : Work s w.st
  early : w.lines = (s.retestUncovered.racksPlaced r).lines ++ first
  fits : w.Fits (s.route r).cfg.caps
  before : ∀ y ∈ first, ∃ e, s.openLine y.slot = some e ∧ s.ServesBefore e d
  after : ∀ y ∈ last, ∃ e, s.openLine y.slot = some e ∧ s.ServesBefore d e
  lines : (s.retestUncovered.binsPlaced r).lines = (considerBin w (s.retested d)).lines ++ last

theorem State.selectLoad_turn {s : State} (law : s.demand.Law) {r : RouteId} {d : DemandLine} (hd : d ∈ s.demand.lines)
    (candidate : s.candidate r d = true) : ∃ w first last, s.BinTurn r d w first last := by
  have here : s.retested d ∈ s.retestUncovered.served r :=
    (State.mem_served _ r _).mpr ⟨retested_mem hd, (retested_candidate s r d).trans candidate⟩
  obtain ⟨sooner, later, split⟩ := List.append_of_mem here
  have ordered := State.served_ordered law r
  rw [split] at ordered
  obtain ⟨-, ordered, cross⟩ := List.pairwise_append.mp ordered
  obtain ⟨ordered, -⟩ := List.pairwise_cons.mp ordered
  have own {e : DemandLine} (he : e ∈ s.retestUncovered.served r) {y : ManifestLine} (slot : y.slot = e.slot) :
      ∃ c, s.openLine y.slot = some c ∧ e = s.retested c := by
    obtain ⟨c, hc, rfl, -⟩ := State.mem_servedRetested he
    exact ⟨c, slot ▸ State.openLine_of_mem law hc, rfl⟩
  have racks := (retestUncovered_work s).trans (s.retestUncovered.racksPlaced_work r)
  obtain ⟨first, early, bins⟩ := foldl_considerBin_lines sooner (s.retestUncovered.racksPlaced r) racks
  have work := racks.trans (Work.foldl_build considerBin_work sooner (s.retestUncovered.racksPlaced r))
  obtain ⟨last, lines, rest⟩ := foldl_considerBin_lines later _ (work.trans (considerBin_work _ (s.retested d)))
  have caps : (s.retestUncovered.route r).cfg.caps = (s.route r).cfg.caps := by rw [retestUncovered_route]
  refine ⟨_, first, last, work, early, List.foldlRecOn sooner considerBin (caps ▸ State.racksPlaced_fits _ r)
    fun _ h e _ => considerBin_fits h e, fun y hy => ?_, fun y hy => ?_, ?_⟩
  · obtain ⟨e, he, line⟩ := bins y hy
    obtain ⟨c, open_line, rfl⟩ := own (split ▸ List.mem_append_left _ he) line.slot_eq
    exact ⟨c, open_line, show s.ServesBefore (s.retested c) (s.retested d) from cross _ he _ List.mem_cons_self⟩
  · obtain ⟨e, he, line⟩ := rest y hy
    obtain ⟨c, open_line, rfl⟩ := own (split ▸ List.mem_append_right _ (List.mem_cons_of_mem _ he)) line.slot_eq
    exact ⟨c, open_line, show s.ServesBefore (s.retested d) (s.retested c) from ordered _ he⟩
  · rw [← lines]
    rw [State.binsPlaced_eq, split, List.foldl_append, List.foldl_cons]

/-- A candidate is given the less of its containers and the room left, while fewer than 32 lines stand (R110). -/
theorem considerBin_given {s : State} {w : BuildWork} (work : Work s w.st) {d : DemandLine} {x : RouteId × Nat}
    (mapped : s.mapSlot d.slot = some x) :
    let k := if w.lines.length < 32 then min d.containers (w.room.get (s.slot d.slot).cfg.size) else 0
    ∃ mid, (considerBin w d).lines = w.lines ++ mid ∧ (∀ y ∈ mid, y.slot = d.slot) ∧
      mid.map (·.planned) = if k = 0 then [] else [k] := by
  intro k
  have size := (work.slot d.slot).cfg
  rw [← work.mapSlot] at mapped
  obtain ⟨route, stop⟩ := x
  unfold considerBin
  rw [mapped, size]
  dsimp only
  rw [work.newLine]
  by_cases few : w.lines.length < 32
  · have enough : ¬maxLines ≤ w.lines.length := Nat.not_le.mpr few
    have k_eq : k = min d.containers (w.room.get (s.slot d.slot).cfg.size) := if_pos few
    rw [← k_eq]
    by_cases none_fit : k = 0
    · rw [if_pos (.inl none_fit), if_pos none_fit]
      exact ⟨[], (List.append_nil _).symm, fun _ h => (nomatch h), rfl⟩
    · rw [if_neg (by simp [none_fit, enough]), if_neg none_fit]
      exact ⟨[_], rfl, List.forall_mem_singleton.mpr rfl, rfl⟩
  · have k_eq : k = 0 := if_neg few
    rw [if_pos (.inr (Nat.not_lt.mp few)), if_pos k_eq]
    exact ⟨[], (List.append_nil _).symm, fun _ h => (nomatch h), rfl⟩

theorem eq_of_perm_atMostOne {xs : List Nat} {k : Nat} (h : xs.Perm (if k = 0 then [] else [k])) :
    xs = if k = 0 then [] else [k] := by
  split at h
  next none_fit => rw [if_pos none_fit]; exact List.perm_nil.mp h
  next some_fit => rw [if_neg some_fit]; exact List.perm_singleton.mp h

/-- The load that stands when a candidate's turn comes: its racks, and its bins so far. -/
theorem State.BinTurn.load {s : State} {r : RouteId} {d : DemandLine} {w : BuildWork} {first last : List ManifestLine}
    (turn : s.BinTurn r d w first last) (z : SizeClass) :
    w.room.get z + ((s.retestUncovered.racksPlaced r).lines.countP (·.size == z) +
      ((first.filter (·.size == z)).map (·.planned)).sum) = (s.route r).cfg.caps.get z := by
  have racks : ∀ y ∈ (s.retestUncovered.racksPlaced r).lines, y.held = 1 := fun y hy =>
    ((State.racksPlaced_run _ r).racks y hy).one
  have bins : (first.filter (·.size == z)).map (·.held) = (first.filter (·.size == z)).map (·.planned) :=
    List.map_congr_left fun y hy =>
      (turn.fits.whole y (turn.early ▸ List.mem_append_right _ (List.mem_of_mem_filter hy))).1
  rw [← turn.fits.room z, turn.early, ← carriedLoad_ofRacks racks, carriedLoad_get, carriedLoad_get, List.filter_append,
    List.map_append, List.sum_append, bins]

/-- Each candidate's bins, by what stands before its turn (R109, R110). -/
theorem State.selectLoad_given {s : State} (law : s.demand.Law) {r : RouteId} {d : DemandLine} (hd : d ∈ s.demand.lines)
    (candidate : s.candidate r d = true) {racks bins : List ManifestLine} {ahead : ManifestLine → Bool}
    (hr : racks.Perm ((s.retestUncovered.selectLoad r).lines.filter ManifestLine.isRack))
    (hb : bins.Perm ((s.retestUncovered.selectLoad r).lines.filter fun y => !y.isRack))
    (hahead : ∀ y, ahead y = true ↔ ∃ e, s.openLine y.slot = some e ∧ s.ServesBefore e d) :
    let z := (s.slot d.slot).cfg.size
    let served := bins.filter ahead
    let used := racks.countP (·.size == z) + ((served.filter (·.size == z)).map (·.planned)).sum
    let k := if racks.length + served.length < 32 then min d.containers ((s.route r).cfg.caps.get z - used) else 0
    (bins.filter (·.slot == d.slot)).map (·.planned) = if k = 0 then [] else [k] := by
  intro z served used k
  obtain ⟨⟨stop, mapped⟩, -⟩ := (s.candidate_iff r d).mp candidate
  obtain ⟨w, first, last, turn⟩ := State.selectLoad_turn law hd candidate
  have load := turn.load z
  have early : w.lines.length = (s.retestUncovered.racksPlaced r).lines.length + first.length := by
    rw [turn.early, List.length_append]
  -- no line before or after the turn is of the slot, and those ahead of d are the ones before
  have apart {e : DemandLine} {y : ManifestLine} (line : s.openLine y.slot = some e) (other : e ≠ d) : y.slot ≠ d.slot :=
    fun same => other (Option.some.inj (line.symm.trans (same ▸ State.openLine_of_mem law hd)))
  have sooner (y : ManifestLine) (hy : y ∈ first) : ahead y = true ∧ y.slot ≠ d.slot := by
    obtain ⟨e, line, before⟩ := turn.before y hy
    exact ⟨(hahead y).mpr ⟨e, line, before⟩, apart line fun same => (same ▸ before).irrefl⟩
  have later (y : ManifestLine) (hy : y ∈ last) : ¬ahead y = true ∧ y.slot ≠ d.slot := by
    obtain ⟨e, line, after⟩ := turn.after y hy
    refine ⟨fun h => ?_, apart line fun same => (same ▸ after).irrefl⟩
    obtain ⟨c, same, before⟩ := (hahead y).mp h
    obtain rfl := Option.some.inj (line.symm.trans same)
    exact before.asymm after
  have itself (y : ManifestLine) (slot : y.slot = d.slot) : ¬ahead y = true := fun h => by
    obtain ⟨c, same, before⟩ := (hahead y).mp h
    rw [slot, State.openLine_of_mem law hd] at same
    obtain rfl := Option.some.inj same
    exact before.irrefl
  obtain ⟨mid, given, own_slot, planned⟩ := considerBin_given turn.work (d := s.retested d) mapped
  have own_slot : ∀ y ∈ mid, y.slot = d.slot := own_slot
  have lines := turn.lines
  rw [given, turn.early, List.append_assoc, List.append_assoc] at lines
  replace hb := State.selectLoad_bins s.retestUncovered r ((State.selectLoad_lines_eq _ r).trans lines) ▸ hb
  rw [State.selectLoad_racks] at hr
  have served_perm : served.Perm first := by
    refine (hb.filter ahead).trans ?_
    rw [List.filter_append, List.filter_append, List.filter_eq_self.mpr fun y hy => (sooner y hy).1,
      List.filter_eq_nil_iff.mpr fun y hy => itself y (own_slot y hy), List.filter_eq_nil_iff.mpr fun y hy => (later y hy).1,
      List.append_nil, List.append_nil]
  have of_slot : (bins.filter (·.slot == d.slot)).Perm mid := by
    refine (hb.filter _).trans ?_
    rw [List.filter_append, List.filter_append, List.filter_eq_nil_iff.mpr fun y hy => by simpa using (sooner y hy).2,
      List.filter_eq_self.mpr fun y hy => beq_iff_eq.mpr (own_slot y hy),
      List.filter_eq_nil_iff.mpr fun y hy => by simpa using (later y hy).2, List.append_nil, List.nil_append]
  have used_eq : used = (s.retestUncovered.racksPlaced r).lines.countP (·.size == z) +
      ((first.filter (·.size == z)).map (·.planned)).sum := by
    rw [← hr.countP_eq, ← ((served_perm.filter _).map _).sum_eq]
  have k_eq : k = if w.lines.length < 32 then min d.containers (w.room.get z) else 0 := by
    rw [early, ← hr.length_eq, ← served_perm.length_eq, show w.room.get z = (s.route r).cfg.caps.get z - used by omega]
  rw [k_eq]
  exact eq_of_perm_atMostOne (planned ▸ of_slot.map _)

theorem State.selectLoad_bin {s : State} {r : RouteId} {y : ManifestLine}
    (hy : y ∈ (s.retestUncovered.selectLoad r).lines.filter fun y => !y.isRack) :
    ∃ d ∈ s.demand.lines, s.candidate r d = true ∧ d.slot = y.slot ∧ y.load = .bin d.cls := by
  obtain ⟨bins, lines, each⟩ := s.retestUncovered.selectLoad_split r
  rw [State.selectLoad_bins _ r lines] at hy
  obtain ⟨e, he, line⟩ := each y hy
  obtain ⟨d, hd, rfl, candidate⟩ := State.mem_servedRetested he
  refine ⟨d, hd, candidate, line.slot_eq.symm, ?_⟩
  obtain ⟨_, _, -, y_eq⟩ := line
  rw [y_eq]
  rfl

/-! ## The racks of a build point -/

/-- Setting the uncovered flags afresh moves nothing that a rack depends on. -/
theorem retestUncovered_reads (s : State) (i : SlotId) : s.retestUncovered.slot i = s.slot i ∧
    s.retestUncovered.mapSlot i = s.mapSlot i ∧ s.retestUncovered.hasRackOut i = s.hasRackOut i ∧
    s.retestUncovered.eligibleRack i = s.eligibleRack i := by
  have work := retestUncovered_work s
  have slot : s.retestUncovered.slot i = s.slot i := by rw [retestUncovered_eq]; rfl
  exact ⟨slot, work.mapSlot i, work.hasRackOut i, work.eligibleRack slot⟩

/-- No rack of a slot is out where no live manifest holds a planned one (R106). -/
theorem State.hasRackOut_iff (s : State) (i : SlotId) : s.hasRackOut i = false ↔
    ∀ q g, (s.buffer q g).state ≠ .free → ∀ y ∈ (s.buffer q g).lines, y.slot = i → y.isRack = true → y.state ≠ .planned := by
  have rackOf (y : ManifestLine) : y.rackOf i = (y.isRack && y.slot == i) := by
    unfold ManifestLine.rackOf ManifestLine.isRack
    cases y.load <;> simp
  have live (q : RouteId) (g : Half) : ((s.route q).buffers.get g).live = true ↔ (s.buffer q g).state ≠ .free := Buffer.live_iff _
  unfold State.hasRackOut
  simp only [List.any_eq_false, routeIds, List.mem_finRange, true_implies, Bool.not_eq_true, Route.mem_liveHalves, live, rackOf,
    Bool.and_eq_false_iff, beq_eq_false_iff_ne, ne_eq]
  refine forall_congr' fun q => forall_congr' fun g => imp_congr_right fun _ => forall_congr' fun y => imp_congr_right fun _ => ?_
  rw [← Bool.not_eq_true]
  tauto

/-- Exactly which slots a build gives a rack (R105, R106). -/
theorem State.selectLoad_racks_iff {s : State} {r : RouteId} {racks : List ManifestLine}
    (hr : racks.Perm ((s.retestUncovered.selectLoad r).lines.filter ManifestLine.isRack)) (i : SlotId) :
    let ahead := racks.filter fun y => decide (y.slot < i)
    (∃ y ∈ racks, y.slot = i) ↔
      (s.slot i).rackable = true ∧ (∃ k, s.mapSlot i = some (r, k)) ∧ s.hasRackOut i = false ∧ s.eligibleRack i ≠ none ∧
        ahead.countP (·.size == (s.slot i).cfg.size) < (s.route r).cfg.caps.get (s.slot i).cfg.size ∧ ahead.length < 32 := by
  intro ahead
  have placed := s.retestUncovered.racksPlaced_iff r i
  obtain ⟨slot, mapped, home, eligible⟩ := retestUncovered_reads s i
  rw [slot, mapped, home, eligible, retestUncovered_route] at placed
  dsimp only at placed
  rw [State.selectLoad_racks] at hr
  have ahead_perm : ahead.Perm ((s.retestUncovered.racksPlaced r).lines.filter fun y => decide (y.slot < i)) := hr.filter _
  rw [ahead_perm.countP_eq, ahead_perm.length_eq, ← placed]
  simp only [hr.mem_iff]

/-- A rack line of a build, and its slot after it: the covered-through moved alone (R37, R105). -/
theorem State.selectLoad_rack {s : State} {r : RouteId} {y : ManifestLine} (hy : y ∈ (s.retestUncovered.selectLoad r).lines)
    {a z : SeqNo} {n : Nat} (load : y.load = .rack a z n) : s.eligibleRack y.slot = some ⟨a, z, n⟩ ∧
      (s.retestUncovered.selectLoad r).st.slot y.slot =
        { s.slot y.slot with marks := (s.slot y.slot).marks.map fun m => { m with covered := z } } := by
  have mem : y ∈ (s.retestUncovered.racksPlaced r).lines := by
    rw [← State.selectLoad_racks]
    exact List.mem_filter.mpr ⟨hy, by rw [ManifestLine.isRack, load]⟩
  obtain ⟨stop, k, -, -, eligible, line, slot⟩ := (State.racksPlaced_run _ r).racks y mem
  obtain ⟨own, -, -, same⟩ := retestUncovered_reads s y.slot
  have rack : LineLoad.rack k.first k.last k.positions = .rack a z n := by rw [← load, line]; rfl
  cases rack
  rw [State.selectLoad_slot, slot, own]
  exact ⟨same.symm.trans eligible, rfl⟩

theorem State.selectLoad_unracked {s : State} {r : RouteId} {i : SlotId}
    (bins : ∀ y ∈ (s.retestUncovered.selectLoad r).lines, y.slot = i → ∃ c, y.load = .bin c) :
    (s.retestUncovered.selectLoad r).st.slot i = s.slot i := by
  rw [State.selectLoad_slot, (State.racksPlaced_run _ r).others i fun y hy slot => ?_]
  · exact (retestUncovered_reads s i).1
  · rw [← State.selectLoad_racks] at hy
    obtain ⟨mem, rack⟩ := List.mem_filter.mp hy
    obtain ⟨c, load⟩ := bins y mem slot
    rw [ManifestLine.isRack, load] at rack
    cases rack

/-! ## Manifest order -/

/-- The order of selection: racks by slot, then bins as they are served (R100, R105, R109). -/
def State.SelectedBefore (s : State) (y z : ManifestLine) : Prop :=
  (y.isRack = true ∧ (z.isRack = true → y.slot < z.slot)) ∨
    (y.isRack = false ∧ z.isRack = false ∧
      ∃ d e, s.openLine y.slot = some d ∧ s.openLine z.slot = some e ∧ s.ServesBefore d e)

theorem State.selectLoad_selected {s : State} (law : s.demand.Law) (r : RouteId) :
    (s.retestUncovered.selectLoad r).lines.Pairwise s.SelectedBefore := by
  obtain ⟨bins, lines, each⟩ := s.retestUncovered.selectLoad_split r
  obtain ⟨placed, run⟩ := State.binsPlaced_run (retestUncovered_law law) r
  obtain rfl : bins = placed :=
    List.append_cancel_left (lines.symm.trans ((State.selectLoad_lines_eq _ r).trans run.lines))
  have bin (y : ManifestLine) (hy : y ∈ bins) : y.isRack = false := by
    obtain ⟨d, -, line⟩ := each y hy
    exact line.isRack
  have rack (y : ManifestLine) (hy : y ∈ (s.retestUncovered.racksPlaced r).lines) : y.isRack = true :=
    ((State.racksPlaced_run _ r).racks y hy).isRack
  have served : ((s.retestUncovered.served r).map (·.slot)).Pairwise fun i j =>
      ∃ d e, s.openLine i = some d ∧ s.openLine j = some e ∧ s.ServesBefore d e := by
    refine List.pairwise_map.mpr ((State.served_ordered law r).imp_of_mem fun {x y} hx hy before => ?_)
    obtain ⟨d, hd, rfl, -⟩ := State.mem_servedRetested hx
    obtain ⟨e, he, rfl, -⟩ := State.mem_servedRetested hy
    exact ⟨d, e, State.openLine_of_mem law hd, State.openLine_of_mem law he, before⟩
  rw [lines]
  refine List.pairwise_append.mpr ⟨?_, ?_, fun y hy z hz => .inl ⟨rack y hy, fun h => by rw [bin z hz] at h; cases h⟩⟩
  · exact (State.racksPlaced_ascending _ r).imp_of_mem fun hy _ less => .inl ⟨rack _ hy, fun _ => less⟩
  · exact (List.pairwise_map.mp (served.sublist run.slots)).imp_of_mem fun hy hz before => .inr ⟨bin _ hy, bin _ hz, before⟩

/-- Within one stop the lines stand in the order of selection (R100). -/
theorem manifestOrder_selected {lines : List ManifestLine} {R : ManifestLine → ManifestLine → Prop} (h : lines.Pairwise R) :
    (manifestOrder lines).Pairwise fun y z => y.stop = z.stop → R y z :=
  (insertionSort_stable (r := fun y z : ManifestLine => y.stop ≤ z.stop) (fun _ _ => Nat.le_total ..)
    (fun _ _ _ => Nat.le_trans) h).imp fun h same => h.2 same.ge

/-! ## The eligible rack, in the rule's own words -/

/-- A slot's beyond units and lead decide whether it is eligible, and for which rack (R36). -/
theorem State.eligibleRack_spec (s : State) (i : SlotId) {m : Marks} (marks : (s.slot i).marks = some m) :
    let c := (s.slot i).cfg
    let beyond := s.beyond i m
    let eligible := c.rackSize ≤ beyond.length ∨ s.lead i m < c.minLead ∧ 1 ≤ beyond.length
    let n := min c.rackSize beyond.length
    (¬eligible → s.eligibleRack i = none) ∧
    (eligible → 1 ≤ c.rackSize → ∃ first last, beyond[0]? = some first ∧ beyond[n - 1]? = some last ∧
      s.eligibleRack i = some ⟨first.seq, last.seq, n⟩) := by
  intro c beyond eligible n
  rw [State.eligibleRack_anchored marks]
  refine ⟨fun h => if_neg h, fun h some_size => ?_⟩
  rw [if_pos h]
  exact rackOfUnits_take (h.elim (some_size.trans ·) And.right) some_size

/-! ## The manifest a build offers -/

section
variable {s t : State} {r : RouteId} {h : Half} {w : BuildWork}

theorem State.BuiltInto.buffer (built : s.BuiltInto r h w t) : t.buffer r h = s.offered r w.lines := by
  show (t.route r).buffers.get h = _
  rw [built.route]
  exact Route.filled_buffer ..

theorem State.BuiltInto.other (built : s.BuiltInto r h w t) : t.buffer r h.other = s.buffer r h.other := by
  show (t.route r).buffers.get h.other = _
  rw [built.route]
  exact Route.filled_other ..

theorem State.BuiltInto.older (built : s.BuiltInto r h w t) :
    (t.route r).older = if (s.buffer r h.other).state = .free then h else h.other := by
  rw [built.route]
  show (if ((s.route r).buffers.get h.other).live then h.other else h) = _
  have live := Buffer.live_iff (s.buffer r h.other)
  by_cases free : (s.buffer r h.other).state = .free
  · rw [if_pos free]
    exact if_neg fun h => live.mp h free
  · rw [if_neg free]
    exact if_pos (live.mpr free)

theorem State.BuiltInto.perm (built : s.BuiltInto r h w t) : (t.buffer r h).lines.Perm w.lines := by
  rw [built.lines]
  exact manifestOrder_perm _

theorem State.BuiltInto.load (built : s.BuiltInto r h w t) (fits : w.Fits (s.route r).cfg.caps) (z : SizeClass) :
    (t.buffer r h).load.get z = (((t.buffer r h).lines.filter (·.size == z)).map (·.planned)).sum ∧
      (t.buffer r h).load.get z ≤ (s.route r).cfg.caps.get z := by
  have load : (t.buffer r h).load = carriedLoad w.lines := by rw [built.buffer]; rfl
  have room := fits.room z
  refine ⟨?_, by rw [load]; omega⟩
  rw [load, carriedLoad_get, List.map_congr_left fun y hy => (fits.whole y (List.mem_of_mem_filter hy)).1]
  exact ((built.perm.filter _).map _).sum_eq.symm

end

end Sys2Proof.Machine

open Sys2Proof Sys2Proof.Machine

/-- Settles O49: the rack of a slot by R36, and the manifest as what a build selects, in manifest order. -/
theorem buildOffersWhatFits : Obligations.BuildOffersWhatFits := by
  refine ⟨fun s i => ⟨State.eligibleRack_unanchored, fun m marks => ?_⟩, fun s r h hs due hold free lower => ?_⟩
  · have lead : s.lead i m = (s.qualifyingUnits i).countP fun u => !seqAfter u.seq m.delivered := List.countP_eq_length_filter.symm
    have spec := s.eligibleRack_spec i marks
    rw [lead] at spec
    exact spec
  have taken : exec (.buildPoint r) s = .next (s.buildPoint r) := exec_due hs rfl due
  have built := buildPoint_built hold free lower
  generalize s.buildPoint r = t at taken built
  have fits : (s.retestUncovered.selectLoad r).Fits (s.route r).cfg.caps := by
    rw [← retestUncovered_route]; exact State.selectLoad_fits _ r
  have load := built.load fits
  have chosen {y : ManifestLine} (hy : y ∈ (t.buffer r h).lines) := built.perm.mem_iff.mp hy
  refine ⟨t, taken, built.rest, ?_, built.others, built.other, ?_, ?_, fun z => (load z).1, ?_, (load .s).2, (load .m).2,
    (load .l).2, ?_, fun y hy => ?_, fun i => ⟨fun a z n => ?_, fun bins => ?_⟩, ?_⟩
  · rw [built.perm.length_eq]; exact built.queues
  · rw [← built.older, built.route]; rfl
  · rw [built.buffer]; rfl
  · exact built.perm.length_eq ▸ fits.count
  · rw [built.lines]; exact manifestOrder_sorted _
  · obtain ⟨mapped, part, size, active⟩ := State.selectLoad_lineFor (chosen hy)
    obtain ⟨held, low, delivered, state⟩ := fits.whole y (chosen hy)
    obtain ⟨own, same, -, -⟩ := retestUncovered_reads s y.slot
    rw [own] at part size active
    exact ⟨same ▸ mapped, part, size, held, low, delivered, state, active⟩
  · rintro ⟨y, hy, rfl, rack⟩
    rw [built.slot]
    exact State.selectLoad_rack (chosen hy) rack
  · rw [built.slot]
    exact State.selectLoad_unracked fun y hy => bins y (built.perm.mem_iff.mpr hy)
  intro isRack racks bins size rank age place before candidate
  have racks_perm : racks.Perm ((s.retestUncovered.selectLoad r).lines.filter ManifestLine.isRack) := built.perm.filter _
  have bins_perm : bins.Perm ((s.retestUncovered.selectLoad r).lines.filter fun y => !y.isRack) := built.perm.filter _
  refine ⟨fun i => ?_, fun y hy => ?_, fun law => ⟨fun d hd eligible => ?_, ?_⟩⟩
  · have exactly_these := State.selectLoad_racks_iff racks_perm i
    rw [Slot.rackable_iff, State.hasRackOut_iff] at exactly_these
    exact exactly_these.trans and_assoc
  · obtain ⟨d, hd, eligible, slot, cls⟩ := State.selectLoad_bin (bins_perm.mem_iff.mp hy)
    exact ⟨d, hd, slot, cls, (s.candidate_iff r d).mp eligible⟩
  · refine State.selectLoad_given law hd ((s.candidate_iff r d).mpr eligible) racks_perm bins_perm fun y => ?_
    rw [Option.any_eq_true]
    exact exists_congr fun e => and_congr_right fun _ => decide_eq_true_iff
  · rw [built.lines]
    exact manifestOrder_selected (State.selectLoad_selected law r)
end
